-- ==== Sys2Proof/Word.lean ====
section
/-! DEFINITION. The byte and the 32-bit word of TBX (spec/00_scope.md R9, R11), and nothing else. -/

namespace Sys2Proof

/-- A byte: bits 7 (most significant) to 0 (R11). -/
abbrev Byte := BitVec 8

/-- A 32-bit word: a host register (R22), an operation word (R80), a word of the byte-to-word converter (R9 WORD_BITS).
Every value is unsigned (R11). -/
abbrev Word := BitVec 32

end Sys2Proof
end

