-- ==== Sys2Proof/Config.lean ====
section
/-! DEFINITION. What an implementation of TBX fixes at build time (spec/00_scope.md R6, R7, R10) and the values the spec leaves
open (spec/93_implementation_defined.md). Every `opaque` constant here is without a body: no proof can learn its value. -/

namespace Sys2Proof

/-- ROLE (R3, R7): a build parameter that never changes at run time. -/
inductive Role where
  | master
  | slave
  deriving DecidableEq, Repr, Inhabited

/-- The build parameters of one TBX (R6, R7). R6 asks C_MAX to be a multiple of 4 from 4 to 2^28: it is held as the index of the
last 32-bit word of a buffer, so that exactly the legal values can be written down. -/
structure Build where
  role : Role
  lastWord : BitVec 26
  deriving DecidableEq, Repr, Inhabited

/-- C_MAX, in bytes (R6): every multiple of 4 from 4 to 2^28 is the C_MAX of one `lastWord`. -/
def Build.cMax (b : Build) : Nat := 4 * (b.lastWord.toNat + 1)

namespace Config

/-- The build parameters of the machine that `State.reset` describes: open (U1, U2). Log entry 1. -/
opaque build : Build

/-- T_UNIT, the unit of register TIMEOUT: open, and no rule depends on it (R10, U3). Log entry 2. -/
opaque tUnit : Nat

/-- TBX_BASE, where the platform maps the register window: open (R70, U4). Log entry 2. -/
opaque tbxBase : Nat

/-- Free value: byte `i` of RECV after the timeout numbered by the first argument (R199, U10). Log entry 4. -/
opaque timeoutRecvByte : Nat → Nat → Byte

/-- Free value: byte `i` of SEND after the reset step numbered by the first argument (R260, U11). Log entry 5. -/
opaque resetSendByte : Nat → Nat → Byte

/-- Free value: byte `i` of RECV after the reset step numbered by the first argument (R260, U11). Log entry 5. -/
opaque resetRecvByte : Nat → Nat → Byte

/-- Free value: copy `k` of LATCHED_CFG (0 is C, then the others in the order of R54) after the reset step numbered by the first
argument (R54, R260, U11). Log entries 5 and 7. -/
opaque resetLatchedWord : Nat → Nat → Word

end Config

end Sys2Proof
end

