-- ==== Sys2Proof/Syntax.lean ====
section
/-! DEFINITION. What TBX can be asked to do: the nine operations of the operation word (spec/30_encoding.md R82) and the nine
registered wire commands (spec/41_command_codec.md R144 to R152), which are the eighteen rows of spec/opcode_table.json; and what
the agents around it do (spec/00_scope.md R15; spec/30_encoding.md R96 to R99; spec/42_bridge.md R197, R202). -/

namespace Sys2Proof

/-- The buffer select values of an operation word (R83); BUF = 3 is reserved and is no buffer. -/
inductive Buffer where
  | cmd
  | send
  | recv
  deriving DecidableEq, Repr, Inhabited

/-- One constructor per row of the opcode table. The first nine are operations of the operation word, the last nine are wire
commands, whose arguments are the fields of R144 to R152 in declared order. -/
inductive Instr where
  | readBits (buf : Buffer) (width : BitVec 6)
  | writeBits (buf : Buffer) (width : BitVec 6)
  | encodeCommand
  | decodeCommand (buf : Buffer)
  | initBridge
  | beginBus
  | stageFrame
  | transferFrame
  | tearDown
  | setStripZLevel (zLevel : BitVec 8)
  | setTimingOffset (offsetNanoseconds : BitVec 24)
  | setTimingScale (timeScaleFactor : BitVec 24)
  | clearMemory (padding : BitVec 10)
  | setZLevelQuad (quadrant : BitVec 2) (zLevel : BitVec 8)
  | setPaletteColor (futureUse : BitVec 10) (colorIdx red green blue : BitVec 8)
  | drawZOrderPixels (drawMode : BitVec 2) (zStart zEnd : BitVec 16) (color : BitVec 8)
  | drawXYPixel (drawMode : BitVec 2) (xPos yPos color : BitVec 8)
  | drawRect (drawMode : BitVec 2) (xPos yPos width height color : BitVec 8)
  deriving DecidableEq, Repr, Inhabited

/-- Whether the row is a wire command (a command image in a buffer) rather than an operation (a word written to OPW). -/
def Instr.isWire : Instr → Bool
  | .readBits _ _ => false
  | .writeBits _ _ => false
  | .encodeCommand => false
  | .decodeCommand _ => false
  | .initBridge => false
  | .beginBus => false
  | .stageFrame => false
  | .transferFrame => false
  | .tearDown => false
  | .setStripZLevel _ => true
  | .setTimingOffset _ => true
  | .setTimingScale _ => true
  | .clearMemory _ => true
  | .setZLevelQuad _ _ => true
  | .setPaletteColor _ _ _ _ _ => true
  | .drawZOrderPixels _ _ _ _ => true
  | .drawXYPixel _ _ _ _ => true
  | .drawRect _ _ _ _ _ _ => true

/-- One line of a host program (R96, R97, R99), with its register named by the window offset it is encoded with and its label
resolved to a line index (R21). An operation line is `wr 0x00` of its operation word (R97). -/
inductive HostLine where
  | wr (offset : BitVec 8) (value : Word)
  | rd (offset : BitVec 8)
  | beq (offset : BitVec 8) (hi lo : Nat) (value : Nat) (target : Nat)
  | bne (offset : BitVec 8) (hi lo : Nat) (value : Nat) (target : Nat)
  | jmp (target : Nat)
  | halt
  deriving DecidableEq, Repr, Inhabited

/-- The outcomes the bus agent may give a TRANSFER in flight (R197). -/
inductive Completion where
  | complete (words : List Word)
  | timeout
  deriving DecidableEq, Repr, Inhabited

/-- Which agent takes the next step (R15). The ingress source takes none of its own: it is read inside STAGE (R188). -/
inductive Turn where
  | host
  | bus (outcome : Completion)
  | reset
  deriving DecidableEq, Repr, Inhabited

end Sys2Proof
end

