-- ==== Sys2Proof/WellFormed.lean ====
section
/-! DEFINITION. Which terms of `Instr` the encodings can spell. The types of the fields already hold the widths of R81 and R144 to
R152; the one check left is that WRITEBITS never selects RECV (spec/30_encoding.md R89). -/

namespace Sys2Proof

/-- The instruction has an encoding. A READBITS or WRITEBITS of width 0 or 33 to 63 is well formed: the decoder does not check the
range of WIDTH (R84). -/
def Instr.wellFormed : Instr → Bool
  | .readBits _ _ => true
  | .writeBits buf _ => buf != .recv
  | .encodeCommand => true
  | .decodeCommand _ => true
  | .initBridge => true
  | .beginBus => true
  | .stageFrame => true
  | .transferFrame => true
  | .tearDown => true
  | .setStripZLevel _ => true
  | .setTimingOffset _ => true
  | .setTimingScale _ => true
  | .clearMemory _ => true
  | .setZLevelQuad _ _ => true
  | .setPaletteColor _ _ _ _ _ => true
  | .drawZOrderPixels _ _ _ _ => true
  | .drawXYPixel _ _ _ _ => true
  | .drawRect _ _ _ _ _ _ => true

end Sys2Proof
end

