-- ==== Sys2Proof/Decode.lean ====
section
/-! DEFINITION. The two encodings of spec/30_encoding.md, which must not be confused: the operation word (R80 to R89) and the wire
command image (R91 to R95; spec/41_command_codec.md R144 to R152). First the decoders, total and refusing by name, then the
encoders, written from the same tables. -/

namespace Sys2Proof

/-- Why a word or an image stands for no instruction. -/
inductive DecodeError where
  /-- A bit of RSV [31:12] is set (R85). -/
  | reservedBits
  /-- OP is 0x9 to 0xF (R88). -/
  | reservedOperation
  /-- BUF = 3, or BUF = RECV with WRITEBITS (R89). -/
  | reservedBuffer
  /-- A field the operation does not use is not 0 (R86). -/
  | unusedField
  /-- The first six bits of the image are no registered opcode (R94). -/
  | unknownOpcode
  /-- The image is shorter than its opcode, or than its opcode's schema asks (R155). -/
  | truncated
  deriving DecidableEq, Repr, Inhabited

/-- What a decoder answers: an instruction, or why there is none. -/
inductive Decoded where
  | ok (i : Instr)
  | illegal (why : DecodeError)
  deriving DecidableEq, Repr, Inhabited

/-- The instruction, where there is one. -/
def Decoded.instr? : Decoded → Option Instr
  | .ok i => some i
  | .illegal _ => none

/-- The buffer select values (R83). -/
def bufferOf (buf : BitVec 2) : Option Buffer :=
  match buf.toNat with
  | 0 => some .cmd
  | 1 => some .send
  | 2 => some .recv
  | _ => none

/-- An operation that uses neither BUF nor WIDTH (R86). -/
def decodePlain (buf : BitVec 2) (wid : BitVec 6) (i : Instr) : Decoded :=
  if buf = 0 ∧ wid = 0 then .ok i else .illegal .unusedField

/-- Decode(v) of R87, with Illegal split by its reason. -/
def decodeOpw (v : Word) : Decoded :=
  let op := v.extractLsb' 0 4
  let buf := v.extractLsb' 4 2
  let wid := v.extractLsb' 6 6
  if v.extractLsb' 12 20 ≠ 0 then .illegal .reservedBits
  else
    match op.toNat with
    | 0 =>
      match bufferOf buf with
      | some b => .ok (.readBits b wid)
      | none => .illegal .reservedBuffer
    | 1 =>
      match bufferOf buf with
      | some .cmd => .ok (.writeBits .cmd wid)
      | some .send => .ok (.writeBits .send wid)
      | some .recv => .illegal .reservedBuffer
      | none => .illegal .reservedBuffer
    | 2 => decodePlain buf wid .encodeCommand
    | 3 =>
      match bufferOf buf with
      | some b => if wid = 0 then .ok (.decodeCommand b) else .illegal .unusedField
      | none => .illegal .reservedBuffer
    | 4 => decodePlain buf wid .initBridge
    | 5 => decodePlain buf wid .beginBus
    | 6 => decodePlain buf wid .stageFrame
    | 7 => decodePlain buf wid .transferFrame
    | 8 => decodePlain buf wid .tearDown
    | _ => .illegal .reservedOperation

/-- The stream of a byte list as one number: stream bit k of R12 is bit k of it. -/
def streamNat : List Byte → Nat
  | [] => 0
  | b :: bs => b.toNat + 256 * streamNat bs

/-- The field of width `w` whose lowest bit is stream bit `p` of the image (R92). -/
def imageField (n p w : Nat) : BitVec w := BitVec.ofNat w (n >>> p)

/-- A command whose 6 + W bits must lie inside an image of `have_` bits (R155). -/
def decodeSized (have_ total : Nat) (i : Instr) : Decoded :=
  if have_ < total then .illegal .truncated else .ok i

/-- The wire command that an image holds from bit 0: the stream bit ranges and totals of R144 to R152. Bits past 6 + W are not
read (R155, R156). -/
def decodeWire (image : List Byte) : Decoded :=
  let n := streamNat image
  let have_ := image.length * 8
  if have_ < 6 then .illegal .truncated
  else
    match n % 64 with
    | 0x01 => decodeSized have_ 14 (.setStripZLevel (imageField n 6 8))
    | 0x02 => decodeSized have_ 30 (.setTimingOffset (imageField n 6 24))
    | 0x03 => decodeSized have_ 30 (.setTimingScale (imageField n 6 24))
    | 0x04 => decodeSized have_ 16 (.clearMemory (imageField n 6 10))
    | 0x05 => decodeSized have_ 16 (.setZLevelQuad (imageField n 6 2) (imageField n 8 8))
    | 0x06 => decodeSized have_ 48 (.setPaletteColor (imageField n 6 10) (imageField n 16 8) (imageField n 24 8) (imageField n 32 8) (imageField n 40 8))
    | 0x07 => decodeSized have_ 48 (.drawZOrderPixels (imageField n 6 2) (imageField n 8 16) (imageField n 24 16) (imageField n 40 8))
    | 0x08 => decodeSized have_ 32 (.drawXYPixel (imageField n 6 2) (imageField n 8 8) (imageField n 16 8) (imageField n 24 8))
    | 0x09 => decodeSized have_ 48 (.drawRect (imageField n 6 2) (imageField n 8 8) (imageField n 16 8) (imageField n 24 8) (imageField n 32 8) (imageField n 40 8))
    | _ => .illegal .unknownOpcode

/-- An encoded instruction: a word for OPW, or a command image for a buffer. -/
inductive Encoded where
  | opWord (w : Word)
  | image (bytes : List Byte)
  deriving DecidableEq, Repr, Inhabited

/-- The decoder of both encodings. -/
def decode : Encoded → Decoded
  | .opWord w => decodeOpw w
  | .image bytes => decodeWire bytes

/-- BUF of a buffer (R83). -/
def Buffer.select : Buffer → BitVec 2
  | .cmd => 0
  | .send => 1
  | .recv => 2

/-- An operation word from its fields (R81): RSV = 0, WIDTH, BUF, OP. -/
def opWordOf (op : BitVec 4) (buf : BitVec 2) (wid : BitVec 6) : Word := 0#20 ++ wid ++ buf ++ op

/-- The first `n` bytes of a stream given as a number; the bits above the command are 0 (R91). -/
def imageBytes (n x : Nat) : List Byte := (List.range n).map fun i => BitVec.ofNat 8 (x >>> (8 * i))

/-- The encoding of an instruction. An operation: its word (R82). A wire command: its opcode in stream bits 0 to 5 and its fields
above it in declared order, so that the last field is written leftmost here (R92, R144 to R152), in 2, 4 or 6 bytes. -/
def encode : Instr → Encoded
  | .readBits buf width => .opWord (opWordOf 0x0 buf.select width)
  | .writeBits buf width => .opWord (opWordOf 0x1 buf.select width)
  | .encodeCommand => .opWord (opWordOf 0x2 0 0)
  | .decodeCommand buf => .opWord (opWordOf 0x3 buf.select 0)
  | .initBridge => .opWord (opWordOf 0x4 0 0)
  | .beginBus => .opWord (opWordOf 0x5 0 0)
  | .stageFrame => .opWord (opWordOf 0x6 0 0)
  | .transferFrame => .opWord (opWordOf 0x7 0 0)
  | .tearDown => .opWord (opWordOf 0x8 0 0)
  | .setStripZLevel zLevel => .image (imageBytes 2 (zLevel ++ 0x01#6).toNat)
  | .setTimingOffset offsetNanoseconds => .image (imageBytes 4 (offsetNanoseconds ++ 0x02#6).toNat)
  | .setTimingScale timeScaleFactor => .image (imageBytes 4 (timeScaleFactor ++ 0x03#6).toNat)
  | .clearMemory padding => .image (imageBytes 2 (padding ++ 0x04#6).toNat)
  | .setZLevelQuad quadrant zLevel => .image (imageBytes 2 (zLevel ++ quadrant ++ 0x05#6).toNat)
  | .setPaletteColor futureUse colorIdx red green blue =>
    .image (imageBytes 6 (blue ++ green ++ red ++ colorIdx ++ futureUse ++ 0x06#6).toNat)
  | .drawZOrderPixels drawMode zStart zEnd color => .image (imageBytes 6 (color ++ zEnd ++ zStart ++ drawMode ++ 0x07#6).toNat)
  | .drawXYPixel drawMode xPos yPos color => .image (imageBytes 4 (color ++ yPos ++ xPos ++ drawMode ++ 0x08#6).toNat)
  | .drawRect drawMode xPos yPos width height color =>
    .image (imageBytes 6 (color ++ height ++ width ++ yPos ++ xPos ++ drawMode ++ 0x09#6).toNat)

/-- The bytes of an encoded command image; none for an operation word, which is no image. -/
def Encoded.bytes : Encoded → List Byte
  | .opWord _ => []
  | .image bs => bs

/-- The bytes that hold a table word of a wire command: the bits numbered as the table numbers them, stream bit 0 first, padded
with zeros to the 8 bytes of CMD. -/
def tableImage (w : Nat) : List Byte := imageBytes 8 w

/-- The instruction the decoder reads from a word of spec/opcode_table.json. The rows of the table's format "opword" have 32 bits
and are read as operation words; the rows of its format "wire" have 8 bits (byte 0 of the image) and are read as images. -/
def decodeTableWord (nbits w : Nat) : Option Instr :=
  if nbits = 32 then (decodeOpw (BitVec.ofNat 32 w)).instr? else (decodeWire (tableImage w)).instr?

end Sys2Proof
end

