-- ==== Sys2Proof/Machine/Memory.lean ====
section
/-! DEFINITION. The contents of one byte buffer (spec/20_memory.md R60): a list of (byte index, byte) pairs in one canonical form,
and the spec's primitives MemRead and MemWrite over it (spec/00_scope.md R13). -/

namespace Sys2Proof.Machine

/-- What a byte that no write has listed holds. CMD is 8 zero bytes after reset (R51) and INIT zero-fills SEND and RECV (R182), so 0
is the spec's value wherever an operation can look; for SEND and RECV between reset and INIT it is a DESIGN CHOICE (log entry 6). -/
def unlistedByte : Byte := 0

/-- The contents of a buffer, sparse: byte indices strictly rising, no entry equal to `unlistedByte`. -/
abbrev Memory := List Host.Cell

/-- The buffer of zero bytes. -/
def Memory.zero : Memory := []

/-- `b[i]` of R13. -/
def Memory.read : Memory → Nat → Byte
  | [], _ => unlistedByte
  | (k, v) :: m, i => if k = i then v else Memory.read m i

/-- `b[i] <- v` of R13, keeping the canonical form. -/
def Memory.write : Memory → Nat → Byte → Memory
  | [], i, v => if v = unlistedByte then [] else [(i, v)]
  | (k, x) :: m, i, v =>
    if i < k then (if v = unlistedByte then (k, x) :: m else (i, v) :: (k, x) :: m)
    else if i = k then (if v = unlistedByte then m else (i, v) :: m)
    else (k, x) :: Memory.write m i v

/-- MemRead(b, i, n) of R13. -/
def Memory.readBytes (m : Memory) (i n : Nat) : List Byte := (List.range n).map fun k => m.read (i + k)

/-- MemWrite(b, i, |L|, L) of R13. -/
def Memory.writeBytes : Memory → Nat → List Byte → Memory
  | m, _, [] => m
  | m, i, b :: bs => Memory.writeBytes (m.write i b) (i + 1) bs

/-- MemWrite(b, 0, n, zeros) of R13. -/
def Memory.zeroFill (m : Memory) (n : Nat) : Memory := m.filter fun c => decide (n ≤ c.1)

/-- All listed indices are above `lo` and rise strictly, and none holds `unlistedByte`. -/
def Memory.wfAbove : Nat → Memory → Bool
  | _, [] => true
  | lo, (k, v) :: m => decide (lo ≤ k) && decide (v ≠ unlistedByte) && Memory.wfAbove (k + 1) m

/-- The canonical form: equal buffer contents are equal lists. -/
def Memory.wf (m : Memory) : Bool := Memory.wfAbove 0 m

/-- No byte at index `size` or above is listed. -/
def Memory.within (m : Memory) (size : Nat) : Bool := m.all fun c => decide (c.1 < size)

end Sys2Proof.Machine
end

