-- ==== Sys2Proof/Machine/Converter.lean ====
section
/-! DEFINITION. The byte-to-word alignment converter: 32-bit little-endian words (spec/42_bridge.md R193 to R195;
spec/20_memory.md R66). -/

namespace Sys2Proof.Machine

/-- Word k of a frame (R66, R194). -/
def outboundWord (m : Memory) (k : Nat) : Word :=
  m.read (4 * k + 3) ++ m.read (4 * k + 2) ++ m.read (4 * k + 1) ++ m.read (4 * k)

/-- The C/4 outbound words of a frame of `c` bytes, in order (R194). -/
def outboundWords (m : Memory) (c : Nat) : List Word := (List.range (c / 4)).map (outboundWord m)

/-- The four bytes of one received word: byte j is bits 8j+7 to 8j (R195). -/
def inboundBytes (w : Word) : List Byte :=
  [w.extractLsb' 0 8, w.extractLsb' 8 8, w.extractLsb' 16 8, w.extractLsb' 24 8]

/-- The bytes of a received frame, in order (R195). -/
def inboundFrame (words : List Word) : List Byte := words.flatMap inboundBytes

end Sys2Proof.Machine
end

