-- ==== Sys2Proof/Machine/BitSlice.lean ====
section
/-! DEFINITION. The bit-slice unit's pure functions (spec/40_bitslice.md R110 to R117) and the stream bit addressing they rest on
(spec/00_scope.md R12, R13). -/

namespace Sys2Proof.Machine

/-- `mask(w)` of R13. -/
def mask (w : Nat) : Nat := 2 ^ w - 1

/-- `cdiv(a, b)` of R13. -/
def cdiv (a b : Nat) : Nat := (a + b - 1) / b

/-- `StreamBit(b, k)` of R12: bit `k mod 8` of byte `k div 8`. -/
def streamBit (m : Memory) (k : Nat) : Bool := (m.read (k / 8)).getLsbD (k % 8)

/-- The loop of BitReadCore (R113). Every turn moves at least one bit, so `w` turns are enough: the first argument counts them. -/
def bitReadLoop (m : Memory) : Nat → Nat → Nat → Nat → Nat → Nat
  | 0, _, _, _, v => v
  | fuel + 1, o, w, got, v =>
    if w = 0 then v
    else
      let bitInByte := o % 8
      let chunk := min w (8 - bitInByte)
      let part := ((m.read (o / 8)).toNat >>> bitInByte) &&& mask chunk
      bitReadLoop m fuel (o + chunk) (w - chunk) (got + chunk) (v ||| (part <<< got))

/-- BitReadCore(b, o, w) of R113, zero-extended to 32 bits. -/
def bitReadCore (m : Memory) (o w : Nat) : Word := BitVec.ofNat 32 (bitReadLoop m w o w 0 0)

/-- The loop of BitWriteCore (R115): read-modify-write of each touched byte under a mask. -/
def bitWriteLoop : Nat → Memory → Nat → Nat → Nat → Nat → Memory
  | 0, m, _, _, _, _ => m
  | fuel + 1, m, o, w, put, v =>
    if w = 0 then m
    else
      let bitInByte := o % 8
      let chunk := min w (8 - bitInByte)
      let part := (v >>> put) &&& mask chunk
      let hole := mask chunk <<< bitInByte
      let old := (m.read (o / 8)).toNat
      let new := (old &&& (0xFF ^^^ hole)) ||| (part <<< bitInByte)
      bitWriteLoop fuel (m.write (o / 8) (BitVec.ofNat 8 new)) (o + chunk) (w - chunk) (put + chunk) v

/-- BitWriteCore(b, o, w, v) of R115. Only bits [w-1:0] of `v` are used (R117). -/
def bitWriteCore (m : Memory) (o w : Nat) (v : Word) : Memory := bitWriteLoop w m o w 0 v.toNat

end Sys2Proof.Machine
end

