-- ==== Sys2Proof/Machine/State.lean ====
section
/-! DEFINITION. Everything the spec gives the machine (spec/10_state.md R20 to R59), as plain data: the host registers, the three
buffers, the hidden state, and beside them the environment the agents of R15 live in. INVENTORY.md lists every field with its rule
and its reset value. -/

namespace Sys2Proof.Machine

/-- The status codes of STATUS.ERR (R230); `statusCode` of Flags.lean numbers them. Codes 10 to 15 are never produced (R27, U20). -/
inductive Status where
  | ok
  | outOfBounds
  | invalidWidth
  | unknownOpcode
  | truncatedBuffer
  | frameOverflow
  | alreadyInitialized
  | transferTimeout
  | notReady
  | illegalOp
  deriving DecidableEq, Repr, Inhabited

/-- The bridge states of STATUS.STATE (R29, R180). -/
inductive Bridge where
  | uninitialized
  | initialized
  | ready
  deriving DecidableEq, Repr, Inhabited

/-- LATCHED_CFG (R54): what INIT latched. `cap` is C. -/
structure LatchedCfg where
  cap : Word
  qdepth : Word
  mode : BitVec 2
  freq : Word
  selpin : BitVec 8
  bindAddr : Word
  bindPort : BitVec 16
  deriving DecidableEq, Repr, Inhabited

/-- XFER (R55): the transfer in flight. `tmo` is there on a Master only. -/
structure Xfer where
  out : List Word
  tmo : Option Word
  deriving DecidableEq, Repr, Inhabited

/-- What TBX sends out of its logical ports (R202). -/
inductive PortEvent where
  /-- `cfg_out` to the bus peripheral; the frequency and the select pin on a Master only (R186). -/
  | configurePeripheral (mode : BitVec 2) (maxSize queueDepth : Word) (freqAndPin : Option (Word × BitVec 8))
  /-- `cfg_out` to the ingress source, on a Master only (R186). -/
  | bindIngress (addr : Word) (port : BitVec 16)
  /-- `begin_out` (R183). -/
  | beginOut
  /-- `release_out` (R184). -/
  | releaseOut
  /-- `xfer_start(OUT, TMO)`, TMO on a Master only (R196). -/
  | xferStart (out : List Word) (tmo : Option Word)
  deriving DecidableEq, Repr, Inhabited

/-- The environment of TBX: the agents of R15 as plain data, so that every schedule and every draw of the spec is a state of the
model. It stands beside the TBX state, not in it: no TBX rule but the draws of R188 and R197 reads it (R56; log entries 9 to 11 and 15). -/
structure Env where
  /-- Which agent takes each next step; with none left, TBX waits (R262). -/
  turns : List Turn
  /-- The host's program (R96, R99). -/
  program : List HostLine
  /-- The host's position in it: a line index (R21). -/
  line : Nat
  /-- The data of the host's last register read, `host_rd(offset) -> data` (R202). -/
  lastRead : Word
  /-- What the ingress source offers at each next STAGE that draws; with none left, it offers no bytes (R188). -/
  ingress : List (List Byte)
  /-- What TBX has sent out of its ports, the newest first (R202). -/
  ports : List PortEvent
  deriving DecidableEq, Repr, Inhabited

/-- The machine. Each register is as wide as the bits it uses (the map under R24); its other bits read 0. -/
structure State where
  /-- The build parameters (R6, R7): no step changes them. -/
  build : Build
  /-- STATUS.ERR (R27). -/
  err : Status
  /-- STATUS.BUSY (R28). -/
  busy : Bool
  /-- STATUS.STATE (R29). -/
  bridge : Bridge
  /-- STATUS.SEL (R30). -/
  sel : Bool
  /-- STATUS.STAGED (R31). -/
  staged : Bool
  /-- OFFSET (R32). -/
  offset : Word
  /-- LEN (R33). -/
  len : Word
  /-- VALUE (R34). -/
  value : Word
  /-- RESULT (R35). -/
  result : Word
  /-- OPCODE (R36). -/
  opcode : BitVec 6
  /-- ENC_LEN (R37). -/
  encLen : BitVec 4
  /-- FIELD0 to FIELD5 (R38). -/
  field0 : Word
  field1 : Word
  field2 : Word
  field3 : Word
  field4 : Word
  field5 : Word
  /-- TIMEOUT, Master only (R39). -/
  timeout : Word
  /-- INGRESS_LEN (R40). -/
  ingressLen : Word
  /-- CFG_CAP (R41). -/
  cfgCap : Word
  /-- CFG_QDEPTH (R42). -/
  cfgQdepth : Word
  /-- CFG_MODE (R43). -/
  cfgMode : BitVec 2
  /-- CFG_FREQ, Master only (R44). -/
  cfgFreq : Word
  /-- CFG_SELPIN, Master only (R45). -/
  cfgSelpin : BitVec 8
  /-- CFG_BIND_ADDR, Master only (R46). -/
  cfgBindAddr : Word
  /-- CFG_BIND_PORT, Master only (R47). -/
  cfgBindPort : BitVec 16
  /-- CMD, 8 bytes (R51). -/
  cmd : Memory
  /-- SEND, C_MAX bytes (R52). -/
  send : Memory
  /-- RECV, C_MAX bytes (R53). -/
  recv : Memory
  /-- LATCHED_CFG (R54). -/
  latched : LatchedCfg
  /-- XFER, while a TRANSFER is in flight (R55). -/
  xfer : Option Xfer
  /-- The host's OPW write that BUSY holds (R25, R264). -/
  held : Option Word
  /-- The environment (R15, R56, R202). -/
  env : Env
  /-- The model's own: how many times a free value of Config.lean has been drawn (log entries 4, 5 and 14). -/
  draws : Nat
  deriving DecidableEq, Repr, Inhabited

/-- Why the machine stops with a fault: never. TBX has no trap and no fault path toward the host bus (R69, R238; D4), every access
that leaves a buffer ends with the status OutOfBounds (R61, R112), and no error is fatal (R235). -/
inductive Fault where
  deriving DecidableEq, Repr

/-- Why the model refuses. -/
inductive Refusal where
  /-- An arm of `exec` without a meaning. Safe: the model stops where the hardware goes on. No arm of this model raises it. -/
  | notModelled (mnemonic : String)
  /-- Raised by `Link.step` alone (Composition.lean): a Master and a Slave on one bus with different C, which the spec tells a model
  to refuse (R203, U24). Safe. -/
  | capacityMismatch
  deriving DecidableEq, Repr, Inhabited

/-- CMD_BYTES (R9). -/
def cmdBytes : Nat := 8

/-- The machine of the given build right after reset (R260, R261, and the reset column of the map under R24). SEND and RECV list
nothing and C is 0: DESIGN CHOICE, log entry 6. -/
def State.resetOf (b : Build) : State where
  build := b
  err := .ok
  busy := false
  bridge := .uninitialized
  sel := false
  staged := false
  offset := 0
  len := 0
  value := 0
  result := 0
  opcode := 0
  encLen := 0
  field0 := 0
  field1 := 0
  field2 := 0
  field3 := 0
  field4 := 0
  field5 := 0
  timeout := 0
  ingressLen := 0
  cfgCap := BitVec.ofNat 32 b.cMax
  cfgQdepth := 0
  cfgMode := 0
  cfgFreq := 0
  cfgSelpin := 0
  cfgBindAddr := 0
  cfgBindPort := 0
  cmd := Memory.zero
  send := Memory.zero
  recv := Memory.zero
  latched := ⟨0, 0, 0, 0, 0, 0, 0⟩
  xfer := none
  held := none
  env := ⟨[], [], 0, 0, [], []⟩
  draws := 0

/-- The machine right after reset, of the open build parameters (U1, U2), with no program, no turn and no input placed
(log entries 1 and 3). -/
def State.reset : State := State.resetOf Config.build

end Sys2Proof.Machine
end

