-- ==== Sys2Proof/Machine/Flags.lean ====
section
/-! DEFINITION. STATUS as a word (spec/10_state.md R26 to R31, R58): the numbers of its fields' values and the view that a host read
of offset 0x04 gives. TBX has no arithmetic condition codes (R58). -/

namespace Sys2Proof.Machine

/-- STATUS.ERR's codes (R230). -/
def statusCode : Status → BitVec 4
  | .ok => 0
  | .outOfBounds => 1
  | .invalidWidth => 2
  | .unknownOpcode => 3
  | .truncatedBuffer => 4
  | .frameOverflow => 5
  | .alreadyInitialized => 6
  | .transferTimeout => 7
  | .notReady => 8
  | .illegalOp => 9

/-- STATUS.STATE's codes (R29); 3 is never produced. -/
def bridgeCode : Bridge → BitVec 2
  | .uninitialized => 0
  | .initialized => 1
  | .ready => 2

/-- The STATUS word (R26): [8] STAGED, [7] SEL, [6:5] STATE, [4] BUSY, [3:0] ERR, the rest 0. -/
def statusWord (s : State) : Word :=
  0#23 ++ BitVec.ofBool s.staged ++ BitVec.ofBool s.sel ++ bridgeCode s.bridge ++ BitVec.ofBool s.busy ++ statusCode s.err

end Sys2Proof.Machine
end

