-- ==== Sys2Proof/Machine/SchemaRom.lean ====
section
/-! DEFINITION. The schema ROM (spec/41_command_codec.md R140 to R142, R144 to R153): fixed, the same for both roles, written by no
operation. -/

namespace Sys2Proof.Machine

/-- A field specification: a name and a width in [1,32] (R140). -/
structure FieldSpec where
  name : String
  width : Nat
  deriving DecidableEq, Repr

/-- A schema: the ordered field specifications of one opcode (R141). -/
abbrev Schema := List FieldSpec

/-- W, the total payload bits of a schema (R141). -/
def Schema.payloadBits (sch : Schema) : Nat := (sch.map FieldSpec.width).sum

/-- The width w_j of the j-th field of a schema, counting from 0; past the last field, 0. -/
def Schema.widthAt (sch : Schema) (j : Nat) : Nat := (sch.map FieldSpec.width).getD j 0

/-- SCHEMA_REV (R49, R153): the one schema revision there is. -/
def schemaRev : BitVec 8 := 1

/-- `Schema(op)` of R142: a row for each of the opcodes 0x01 to 0x09, none for the other 55 values. -/
def schemaOf (op : BitVec 6) : Option Schema :=
  match op.toNat with
  | 1 => some [⟨"zLevel", 8⟩]
  | 2 => some [⟨"offsetNanoseconds", 24⟩]
  | 3 => some [⟨"timeScaleFactor", 24⟩]
  | 4 => some [⟨"padding", 10⟩]
  | 5 => some [⟨"quadrant", 2⟩, ⟨"zLevel", 8⟩]
  | 6 => some [⟨"futureUse", 10⟩, ⟨"colorIdx", 8⟩, ⟨"red", 8⟩, ⟨"green", 8⟩, ⟨"blue", 8⟩]
  | 7 => some [⟨"drawMode", 2⟩, ⟨"zStart", 16⟩, ⟨"zEnd", 16⟩, ⟨"color", 8⟩]
  | 8 => some [⟨"drawMode", 2⟩, ⟨"xPos", 8⟩, ⟨"yPos", 8⟩, ⟨"color", 8⟩]
  | 9 => some [⟨"drawMode", 2⟩, ⟨"xPos", 8⟩, ⟨"yPos", 8⟩, ⟨"width", 8⟩, ⟨"height", 8⟩, ⟨"color", 8⟩]
  | _ => none

end Sys2Proof.Machine
end

