-- ==== Sys2Proof/Machine/Registers.lean ====
section
/-! DEFINITION. The register window (spec/10_state.md R22 to R50): which register an offset reaches, what a host read gives and what
a host write changes. A write to OPW is not here: it issues an operation (R25; Agents.lean). -/

namespace Sys2Proof.Machine

/-- The registers of the map under R24. -/
inductive Reg where
  | opw
  | status
  | offset
  | len
  | value
  | result
  | opcode
  | encLen
  | field0
  | field1
  | field2
  | field3
  | field4
  | field5
  | timeout
  | ingressLen
  | cfgCap
  | cfgQdepth
  | cfgMode
  | cfgFreq
  | cfgSelpin
  | cfgBindAddr
  | cfgBindPort
  | capActive
  | param
  | paramCmax
  deriving DecidableEq, Repr, Inhabited

/-- The register an access at an offset reaches: offset bits [1:0] are ignored (R22, R69), and 0x68 to 0xFC are reserved (R23). -/
def regAt (offset : BitVec 8) : Option Reg :=
  match offset.toNat / 4 with
  | 0x00 => some .opw
  | 0x01 => some .status
  | 0x02 => some .offset
  | 0x03 => some .len
  | 0x04 => some .value
  | 0x05 => some .result
  | 0x06 => some .opcode
  | 0x07 => some .encLen
  | 0x08 => some .field0
  | 0x09 => some .field1
  | 0x0A => some .field2
  | 0x0B => some .field3
  | 0x0C => some .field4
  | 0x0D => some .field5
  | 0x0E => some .timeout
  | 0x0F => some .ingressLen
  | 0x10 => some .cfgCap
  | 0x11 => some .cfgQdepth
  | 0x12 => some .cfgMode
  | 0x13 => some .cfgFreq
  | 0x14 => some .cfgSelpin
  | 0x15 => some .cfgBindAddr
  | 0x16 => some .cfgBindPort
  | 0x17 => some .capActive
  | 0x18 => some .param
  | 0x19 => some .paramCmax
  | _ => none

/-- The window offset of a register (the map under R24). -/
def regOffset : Reg → BitVec 8
  | .opw => 0x00
  | .status => 0x04
  | .offset => 0x08
  | .len => 0x0C
  | .value => 0x10
  | .result => 0x14
  | .opcode => 0x18
  | .encLen => 0x1C
  | .field0 => 0x20
  | .field1 => 0x24
  | .field2 => 0x28
  | .field3 => 0x2C
  | .field4 => 0x30
  | .field5 => 0x34
  | .timeout => 0x38
  | .ingressLen => 0x3C
  | .cfgCap => 0x40
  | .cfgQdepth => 0x44
  | .cfgMode => 0x48
  | .cfgFreq => 0x4C
  | .cfgSelpin => 0x50
  | .cfgBindAddr => 0x54
  | .cfgBindPort => 0x58
  | .capActive => 0x5C
  | .param => 0x60
  | .paramCmax => 0x64

/-- The window offset of a host bus address, where the window sits at TBX_BASE (R22, R70); none outside the 256 bytes. -/
def windowOffset (address : Nat) : Option (BitVec 8) :=
  if Config.tbxBase ≤ address ∧ address < Config.tbxBase + 256 then some (BitVec.ofNat 8 (address - Config.tbxBase)) else none

/-- A register that exists on a Master only: on a Slave it reads 0 (R24). -/
def State.masterOnly {w : Nat} (s : State) (v : BitVec w) : BitVec w :=
  match s.build.role with
  | .master => v
  | .slave => 0

/-- A write to a Master-only register: on a Slave it is ignored (R24). -/
def State.onMaster (s t : State) : State :=
  match s.build.role with
  | .master => t
  | .slave => s

/-- CAP_ACTIVE (R48). -/
def State.capActive (s : State) : Word :=
  match s.bridge with
  | .uninitialized => 0
  | .initialized => s.latched.cap
  | .ready => s.latched.cap

/-- PARAM.ROLE (R49). -/
def roleBit : Role → BitVec 1
  | .master => 0
  | .slave => 1

/-- PARAM (R49). -/
def State.param (s : State) : Word := 0#16 ++ schemaRev ++ 0#7 ++ roleBit s.build.role

/-- What reading a register gives, zero-extended (R26 to R50); OPW reads 0 (R23). -/
def State.readRegister (s : State) : Reg → Word
  | .opw => 0
  | .status => statusWord s
  | .offset => s.offset
  | .len => s.len
  | .value => s.value
  | .result => s.result
  | .opcode => s.opcode.setWidth 32
  | .encLen => s.encLen.setWidth 32
  | .field0 => s.field0
  | .field1 => s.field1
  | .field2 => s.field2
  | .field3 => s.field3
  | .field4 => s.field4
  | .field5 => s.field5
  | .timeout => s.masterOnly s.timeout
  | .ingressLen => s.ingressLen
  | .cfgCap => s.cfgCap
  | .cfgQdepth => s.cfgQdepth
  | .cfgMode => s.cfgMode.setWidth 32
  | .cfgFreq => s.masterOnly s.cfgFreq
  | .cfgSelpin => s.masterOnly (s.cfgSelpin.setWidth 32)
  | .cfgBindAddr => s.masterOnly s.cfgBindAddr
  | .cfgBindPort => s.masterOnly (s.cfgBindPort.setWidth 32)
  | .capActive => s.capActive
  | .param => s.param
  | .paramCmax => BitVec.ofNat 32 s.build.cMax

/-- `host_rd(offset)` (R202): reserved offsets read 0 (R23). -/
def State.hostRead (s : State) (offset : BitVec 8) : Word :=
  match regAt offset with
  | some r => s.readRegister r
  | none => 0

/-- `legal(v)` of R41, for a buffer of `cMax` bytes. -/
def legalCapacity (cMax : Nat) (v : Word) : Word := BitVec.ofNat 32 (min cMax (max 4 (v.toNat - v.toNat % 4)))

/-- What writing a register changes (R32 to R50): a read-only register ignores the write (R23), a field's bits beyond its width are
dropped. OPW stores nothing (R25). -/
def State.writeRegister (s : State) (v : Word) : Reg → State
  | .opw => s
  | .status => s
  | .offset => { s with offset := v }
  | .len => { s with len := v }
  | .value => { s with value := v }
  | .result => s
  | .opcode => { s with opcode := v.setWidth 6 }
  | .encLen => s
  | .field0 => { s with field0 := v }
  | .field1 => { s with field1 := v }
  | .field2 => { s with field2 := v }
  | .field3 => { s with field3 := v }
  | .field4 => { s with field4 := v }
  | .field5 => { s with field5 := v }
  | .timeout => s.onMaster { s with timeout := v }
  | .ingressLen => s
  | .cfgCap => { s with cfgCap := legalCapacity s.build.cMax v }
  | .cfgQdepth => { s with cfgQdepth := v }
  | .cfgMode => { s with cfgMode := v.setWidth 2 }
  | .cfgFreq => s.onMaster { s with cfgFreq := v }
  | .cfgSelpin => s.onMaster { s with cfgSelpin := v.setWidth 8 }
  | .cfgBindAddr => s.onMaster { s with cfgBindAddr := v }
  | .cfgBindPort => s.onMaster { s with cfgBindPort := v.setWidth 16 }
  | .capActive => s
  | .param => s
  | .paramCmax => s

/-- `host_wr(offset, data)` to any register but OPW (R202): reserved offsets ignore the write (R23). -/
def State.hostWrite (s : State) (offset : BitVec 8) (v : Word) : State :=
  match regAt offset with
  | some r => s.writeRegister v r
  | none => s

end Sys2Proof.Machine
end

