-- ==== Sys2Proof/Machine/Operands.lean ====
section
/-! DEFINITION. How the operations get their operands (spec/30_encoding.md R90; spec/40_bitslice.md R111, R112, R120;
spec/20_memory.md R61). -/

namespace Sys2Proof.Machine

/-- C, the active frame capacity in bytes (R8). -/
def State.capacity (s : State) : Nat := s.latched.cap.toNat

/-- The contents of a buffer. -/
def State.buffer (s : State) : Buffer → Memory
  | .cmd => s.cmd
  | .send => s.send
  | .recv => s.recv

/-- Size(b) of R61. -/
def State.bufferSize (s : State) : Buffer → Nat
  | .cmd => cmdBytes
  | .send => s.capacity
  | .recv => s.capacity

/-- ResolveBuffer of R120: NotReady for SEND and RECV while the bridge is Uninitialized. -/
def State.resolveBuffer (s : State) (buf : Buffer) : Except Status (Memory × Nat) :=
  match buf with
  | .cmd => .ok (s.cmd, cmdBytes)
  | .send => if s.bridge = .uninitialized then .error .notReady else .ok (s.send, s.capacity)
  | .recv => if s.bridge = .uninitialized then .error .notReady else .ok (s.recv, s.capacity)

/-- The checks READBITS and WRITEBITS share, in the order of R118, R119 and R233: NotReady, InvalidWidth, OutOfBounds. On success,
the buffer's contents. -/
def State.sliceOperands (s : State) (buf : Buffer) (width : BitVec 6) : Except Status Memory :=
  match s.resolveBuffer buf with
  | .error st => .error st
  | .ok (b, size) =>
    if width.toNat < 1 ∨ 32 < width.toNat then .error .invalidWidth
    else if size < s.len.toNat then .error .outOfBounds
    else if s.len.toNat * 8 < s.offset.toNat + width.toNat then .error .outOfBounds
    else .ok b

/-- The values of FIELD0 to FIELD5 (R38). -/
def State.fields (s : State) : List Word := [s.field0, s.field1, s.field2, s.field3, s.field4, s.field5]

/-- The ingress draw of a STAGE in Ready (R188, R189): what the source offers on a Master, no bytes on a Slave. -/
def State.ingressDraw (s : State) : List Byte :=
  match s.build.role with
  | .master => s.env.ingress.headD []
  | .slave => []

end Sys2Proof.Machine
end

