-- ==== Sys2Proof/Machine/Ops.lean ====
section
/-! DEFINITION. The named operations over registers and buffers that the meanings share. TBX has no trap entry and no return from
one (spec/60_exceptions.md R238, R239): `State.raise` is all that an error does. -/

namespace Sys2Proof.Machine

/-- What a meaning answers. -/
abbrev Result := Host.Outcome State Fault Refusal

/-- The operation completes with a status (R231), and nothing else changes: `raise S` of R13, and `x[STATUS].ERR <- OK`. -/
def State.raise (s : State) (st : Status) : State := { s with err := st }

/-- Replaces the contents of a buffer. -/
def State.setBuffer (s : State) (buf : Buffer) (m : Memory) : State :=
  match buf with
  | .cmd => { s with cmd := m }
  | .send => { s with send := m }
  | .recv => { s with recv := m }

/-- Sends an event out of the ports (R202). -/
def State.emit (s : State) (e : PortEvent) : State := { s with env := { s.env with ports := e :: s.env.ports } }

/-- COMMIT of DECODE (R155, R159): OPCODE, the six FIELD registers, those past the list 0, and ERR = OK. -/
def State.commitCommand (s : State) (op : BitVec 6) (vals : List Word) : State :=
  { s with
    opcode := op
    field0 := vals.getD 0 0
    field1 := vals.getD 1 0
    field2 := vals.getD 2 0
    field3 := vals.getD 3 0
    field4 := vals.getD 4 0
    field5 := vals.getD 5 0
    err := .ok }

/-- Forward(LATCHED_CFG) (R186): the peripheral's configuration, with max-size C, and on a Master the ingress binding. -/
def State.forwardConfig (s : State) : State :=
  match s.build.role with
  | .master =>
    (s.emit (.configurePeripheral s.latched.mode s.latched.cap s.latched.qdepth (some (s.latched.freq, s.latched.selpin)))).emit
      (.bindIngress s.latched.bindAddr s.latched.bindPort)
  | .slave => s.emit (.configurePeripheral s.latched.mode s.latched.cap s.latched.qdepth none)

/-- The bytes of a free value, one for each of the `n` byte indices of a buffer. -/
def freeBytes (byteAt : Nat → Byte) (n : Nat) : List Byte := (List.range n).map byteAt

/-- Whether the bus agent may take an outcome now (R197): only while BUSY = 1; `Complete` carries C/4 words; `Timeout` is a
Master's. Whatever XFER.TMO holds, both are enabled on a Master. -/
def State.completionEnabled (s : State) : Completion → Bool
  | .complete words => s.busy && decide (words.length = s.capacity / 4)
  | .timeout => s.busy && decide (s.build.role = .master)

/-- The select line is deasserted, on a Master (R198, R199); a Slave has none (R200). -/
def State.deselect (s : State) : Bool :=
  match s.build.role with
  | .master => false
  | .slave => s.sel

/-- Complete(IN) (R195, R198, R200): RECV takes the words' bytes, ERR = OK, and the transfer is over. -/
def State.completeTransfer (s : State) (words : List Word) : State :=
  { s with recv := s.recv.writeBytes 0 (inboundFrame words), sel := s.deselect, busy := false, err := .ok, xfer := none }

/-- Timeout (R199): every RECV byte 0 to C-1 becomes a free value, ERR = TransferTimeout, and the transfer is over. -/
def State.timeoutTransfer (s : State) : State :=
  { s with
    recv := s.recv.writeBytes 0 (freeBytes (Config.timeoutRecvByte s.draws) s.capacity)
    sel := s.deselect
    busy := false
    err := .transferTimeout
    xfer := none
    draws := s.draws + 1 }

/-- The bus agent's step (R197 to R201); an outcome that is not enabled is no step, so its turn passes (log entry
9). -/
def State.busStep (s : State) (outcome : Completion) : State :=
  if s.completionEnabled outcome then
    match outcome with
    | .complete words => s.completeTransfer words
    | .timeout => s.timeoutTransfer
  else s

/-- LATCHED_CFG after a reset step: unspecified, so every copy is a free value (R260, R261, U11; log entries 5 and 7). -/
def State.freeLatched (s : State) : LatchedCfg where
  cap := Config.resetLatchedWord s.draws 0
  qdepth := Config.resetLatchedWord s.draws 1
  mode := (Config.resetLatchedWord s.draws 2).setWidth 2
  freq := Config.resetLatchedWord s.draws 3
  selpin := (Config.resetLatchedWord s.draws 4).setWidth 8
  bindAddr := Config.resetLatchedWord s.draws 5
  bindPort := (Config.resetLatchedWord s.draws 6).setWidth 16

/-- The reset step (R260): every register and CMD at its reset value, a transfer in flight and a held OPW write dropped, SEND, RECV
and LATCHED_CFG unspecified (free values). The build parameters and the environment are not reset. -/
def State.resetStep (s : State) : State :=
  { State.resetOf s.build with
    send := s.send.writeBytes 0 (freeBytes (Config.resetSendByte s.draws) s.build.cMax)
    recv := s.recv.writeBytes 0 (freeBytes (Config.resetRecvByte s.draws) s.build.cMax)
    latched := s.freeLatched
    env := s.env
    draws := s.draws + 1 }

end Sys2Proof.Machine
end

