-- ==== Sys2Proof/Machine/Agents.lean ====
section
/-! DEFINITION. What each agent does with its turn (spec/00_scope.md R15): the host, the bus agent and reset. A host write to OPW is
the only step that issues an operation (spec/10_state.md R21, R25). -/

namespace Sys2Proof.Machine

/-- What a turn comes to: a step that is over, or an operation word that issues in the given state. -/
inductive Move where
  | quiet (t : State)
  | issue (v : Word) (t : State)
  deriving DecidableEq, Repr

/-- The host goes to another line (R99). -/
def State.atLine (s : State) (n : Nat) : State := { s with env := { s.env with line := n } }

/-- The host has read a register (R202): no TBX state changes (R23). -/
def State.seen (s : State) (offset : BitVec 8) : State := { s with env := { s.env with lastRead := s.hostRead offset } }

/-- Bits [hi:lo] of a read value (R99). -/
def readBitsOf (v : Word) (hi lo : Nat) : Nat := (v.toNat >>> lo) % 2 ^ (hi + 1 - lo)

/-- A host write (R25, R264): to OPW it issues, or is held while BUSY = 1; to any other offset it takes effect at once. -/
def State.hostWriteMove (s : State) (offset : BitVec 8) (v : Word) : Move :=
  if regAt offset = some .opw then (if s.busy then .quiet { s with held := some v } else .issue v s)
  else .quiet (s.hostWrite offset v)

/-- One line of the host's program (R97, R99). A HALT ends the program: the host stays there. -/
def State.hostLineMove (s : State) : HostLine → Move
  | .wr offset v => (s.atLine (s.env.line + 1)).hostWriteMove offset v
  | .rd offset => .quiet ((s.seen offset).atLine (s.env.line + 1))
  | .beq offset hi lo value target =>
    .quiet ((s.seen offset).atLine (if readBitsOf (s.hostRead offset) hi lo = value then target else s.env.line + 1))
  | .bne offset hi lo value target =>
    .quiet ((s.seen offset).atLine (if readBitsOf (s.hostRead offset) hi lo = value then s.env.line + 1 else target))
  | .jmp target => .quiet (s.atLine target)
  | .halt => .quiet s

/-- The host's turn. While a write to OPW is held, the host's bus access is not over and the host does nothing else; once BUSY = 0
it completes by issuing its operation (R25, R264; log entry 12). Past the end of its program the host does nothing (log entry 11). -/
def State.hostMove (s : State) : Move :=
  match s.held with
  | some v => if s.busy then .quiet s else .issue v { s with held := none }
  | none =>
    match s.env.program[s.env.line]? with
    | some l => s.hostLineMove l
    | none => .quiet s

/-- The schedule moves on. -/
def State.afterTurn (s : State) : State := { s with env := { s.env with turns := s.env.turns.tail } }

/-- The next turn (R15). With no turn scheduled, TBX waits (R262; log entry 9). -/
def State.nextMove (s : State) : Move :=
  match s.env.turns with
  | [] => .quiet s
  | .host :: _ => s.afterTurn.hostMove
  | .bus outcome :: _ => .quiet (s.afterTurn.busStep outcome)
  | .reset :: _ => .quiet s.afterTurn.resetStep

/-- The instruction that the next step issues, where there is one. -/
def State.issuing (s : State) : Option Instr :=
  match s.nextMove with
  | .quiet _ => none
  | .issue v _ => (decodeOpw v).instr?

/-- Makes the very next turn a host turn that writes the word to OPW and issues it: one line of program, no access held, no TRANSFER
in flight. Log entry 3. -/
def State.withOpWord (s : State) (v : Word) : State :=
  { s with
    env := { s.env with turns := .host :: s.env.turns, program := [.wr 0x00 v], line := 0 }
    held := none
    busy := false
    sel := s.deselect
    xfer := none }

/-- Puts a command image into CMD, its LEN the whole of CMD, and makes the very next turn DECODE it. Log entry 3. -/
def State.withImage (s : State) (image : List Byte) : State :=
  { s with cmd := s.cmd.writeBytes 0 image, len := BitVec.ofNat 32 cmdBytes }.withOpWord (opWordOf 0x3 Buffer.cmd.select 0)

end Sys2Proof.Machine
end

