-- ==== Sys2Proof/Machine/BitSliceUnit.lean ====
section
/-! DEFINITION. The operations of the bit-slice unit (spec/40_bitslice.md R118, R119). -/

namespace Sys2Proof.Machine

/-- READBITS (R118). A failing one leaves RESULT as it is (R35). -/
def execReadBits (buf : Buffer) (width : BitVec 6) (s : State) : Result :=
  match s.sliceOperands buf width with
  | .error st => .next (s.raise st)
  | .ok b => .next { s with result := bitReadCore b s.offset.toNat width.toNat, err := .ok }

/-- WRITEBITS (R119). WRITEBITS RECV is no operation of TBX: it is IllegalOp (R89; log entry 17). -/
def execWriteBits (buf : Buffer) (width : BitVec 6) (s : State) : Result :=
  match buf with
  | .recv => .next (s.raise .illegalOp)
  | .cmd | .send =>
    match s.sliceOperands buf width with
    | .error st => .next (s.raise st)
    | .ok b => .next ((s.setBuffer buf (bitWriteCore b s.offset.toNat width.toNat s.value)).raise .ok)

end Sys2Proof.Machine
end

