-- ==== Sys2Proof/Machine/CommandSerializer.lean ====
section
/-! DEFINITION. The operations of the command serializer (spec/41_command_codec.md R154, R155). -/

namespace Sys2Proof.Machine

/-- The field loop of ENCODE (R154): writes each field's low bits in declared order, from bit cursor `p`; answers the image and the
cursor behind it. -/
def putFields (img : Memory) (p : Nat) : Schema → List Word → Memory × Nat
  | [], _ => (img, p)
  | f :: fs, vals => putFields (bitWriteCore img p f.width (vals.headD 0)) (p + f.width) fs vals.tail

/-- The command image of an opcode and its fields, and its bit length (R154): the opcode first, over 8 zero bytes. -/
def buildImage (op : BitVec 6) (sch : Schema) (vals : List Word) : Memory × Nat :=
  putFields (bitWriteCore Memory.zero 0 6 (op.setWidth 32)) 6 sch vals

/-- ENCODE (R154). -/
def execEncode (s : State) : Result :=
  match schemaOf s.opcode with
  | none => .next (s.raise .unknownOpcode)
  | some sch =>
    let built := buildImage s.opcode sch s.fields
    .next { s with cmd := s.cmd.writeBytes 0 (built.1.readBytes 0 cmdBytes), encLen := BitVec.ofNat 4 (cdiv built.2 8), err := .ok }

/-- The field loop of DECODE (R155): reads each field in declared order, from bit cursor `p`. -/
def getFields (b : Memory) (p : Nat) : Schema → List Word
  | [] => []
  | f :: fs => bitReadCore b p f.width :: getFields b (p + f.width) fs

/-- DECODE (R155), its checks in the order of R233. -/
def execDecode (buf : Buffer) (s : State) : Result :=
  match s.resolveBuffer buf with
  | .error st => .next (s.raise st)
  | .ok (b, size) =>
    if size < s.len.toNat then .next (s.raise .outOfBounds)
    else if s.len.toNat * 8 < 6 then .next (s.raise .truncatedBuffer)
    else
      let op := (bitReadCore b 0 6).setWidth 6
      match schemaOf op with
      | none => .next (s.raise .unknownOpcode)
      | some sch =>
        if s.len.toNat * 8 < 6 + sch.payloadBits then .next (s.raise .truncatedBuffer)
        else .next (s.commitCommand op (getFields b 6 sch))

end Sys2Proof.Machine
end

