-- ==== Sys2Proof/Machine/FrameBridge.lean ====
section
/-! DEFINITION. The operations of the frame bridge (spec/42_bridge.md R180 to R201): INIT, BEGIN, TEARDOWN, STAGE and the issue of
TRANSFER. The completion of a TRANSFER is the bus agent's step (`State.busStep`). -/

namespace Sys2Proof.Machine

/-- The configuration INIT latches, read as the host would read it (R54, R182): on a Slave the Master-only registers read 0 (R24). -/
def State.configToLatch (s : State) : LatchedCfg where
  cap := s.cfgCap
  qdepth := s.cfgQdepth
  mode := s.cfgMode
  freq := s.masterOnly s.cfgFreq
  selpin := s.masterOnly s.cfgSelpin
  bindAddr := s.masterOnly s.cfgBindAddr
  bindPort := s.masterOnly s.cfgBindPort

/-- INIT (R182). -/
def execInit (s : State) : Result :=
  match s.bridge with
  | .initialized => .next (s.raise .alreadyInitialized)
  | .ready => .next (s.raise .alreadyInitialized)
  | .uninitialized =>
    .next
      { s with
        latched := s.configToLatch
        send := s.send.zeroFill s.build.cMax
        recv := s.recv.zeroFill s.build.cMax
        staged := false
        ingressLen := 0
        bridge := .initialized
        err := .ok }.forwardConfig

/-- BEGIN (R183). -/
def execBegin (s : State) : Result :=
  match s.bridge with
  | .uninitialized => .next (s.raise .notReady)
  | .ready => .next (s.raise .alreadyInitialized)
  | .initialized => .next ({ s with bridge := .ready, err := .ok }.emit .beginOut)

/-- TEARDOWN (R184). -/
def execTearDown (s : State) : Result :=
  match s.bridge with
  | .uninitialized => .next { s with staged := false, ingressLen := 0, err := .ok }
  | .initialized => .next ({ s with bridge := .uninitialized, staged := false, ingressLen := 0, err := .ok }.emit .releaseOut)
  | .ready => .next ({ s with bridge := .uninitialized, staged := false, ingressLen := 0, err := .ok }.emit .releaseOut)

/-- The offered bytes are consumed (R188): on a Master the source goes on to its next offer. A Slave has no ingress source (R187). -/
def State.consumeIngress (s : State) : State :=
  match s.build.role with
  | .master => { s with env := { s.env with ingress := s.env.ingress.tail } }
  | .slave => s

/-- INGRESS_LEN for `n` bytes: it saturates at 2^32 - 1 (R40). -/
def saturate32 (n : Nat) : Word := BitVec.ofNat 32 (min n (2 ^ 32 - 1))

/-- STAGE with the draw A (R189): the three cases of R190, R191 and R192. -/
def State.stageBytes (s : State) (a : List Byte) : State :=
  if a.length = 0 then { s with staged := false, ingressLen := 0, err := .ok }
  else if s.capacity < a.length then { s with staged := false, ingressLen := saturate32 a.length, err := .frameOverflow }
  else
    { s with
      send := (s.send.zeroFill s.capacity).writeBytes 0 a
      staged := true
      ingressLen := BitVec.ofNat 32 a.length
      err := .ok }

/-- STAGE (R189): outside Ready nothing is drawn. -/
def execStage (s : State) : Result :=
  match s.bridge with
  | .uninitialized => .next (s.raise .notReady)
  | .initialized => .next (s.raise .notReady)
  | .ready => .next (s.consumeIngress.stageBytes s.ingressDraw)

/-- XFER.TMO: TIMEOUT at issue, on a Master only (R55, R196). -/
def State.latchTimeout (s : State) : Option Word :=
  match s.build.role with
  | .master => some s.timeout
  | .slave => none

/-- The select line is asserted, on a Master (R196); a Slave has none (R30). -/
def State.select (s : State) : Bool :=
  match s.build.role with
  | .master => true
  | .slave => s.sel

/-- The issue step of TRANSFER (R196): SEND is snapshotted, BUSY = 1, and ERR is not written yet (R27). -/
def execTransfer (s : State) : Result :=
  match s.bridge with
  | .uninitialized => .next (s.raise .notReady)
  | .initialized => .next (s.raise .notReady)
  | .ready =>
    .next
      ({ s with xfer := some ⟨outboundWords s.send s.capacity, s.latchTimeout⟩, sel := s.select, busy := true }.emit
        (.xferStart (outboundWords s.send s.capacity) s.latchTimeout))

end Sys2Proof.Machine
end

