-- ==== Sys2Proof/Machine/WireCommands.lean ====
section
/-! DEFINITION. The registered wire commands (spec/41_command_codec.md R144 to R152). TBX ends at the decoded command in OPCODE and
FIELD0 to FIELD5 (spec/00_scope.md R5): what a wire command does is what DECODE of its image commits, each field zero-extended
(R92) in the register its rule names, the registers past the field count 0 (R143). Log entry 8. -/

namespace Sys2Proof.Machine

/-- SetStripZLevel (R144). -/
def execSetStripZLevel (zLevel : BitVec 8) (s : State) : Result := .next (s.commitCommand 0x01 [zLevel.setWidth 32])

/-- SetTimingOffset (R145). -/
def execSetTimingOffset (offsetNanoseconds : BitVec 24) (s : State) : Result :=
  .next (s.commitCommand 0x02 [offsetNanoseconds.setWidth 32])

/-- SetTimingScale (R146). -/
def execSetTimingScale (timeScaleFactor : BitVec 24) (s : State) : Result :=
  .next (s.commitCommand 0x03 [timeScaleFactor.setWidth 32])

/-- ClearMemory (R147): padding is an ordinary field. -/
def execClearMemory (padding : BitVec 10) (s : State) : Result := .next (s.commitCommand 0x04 [padding.setWidth 32])

/-- SetZLevelQuad (R148). -/
def execSetZLevelQuad (quadrant : BitVec 2) (zLevel : BitVec 8) (s : State) : Result :=
  .next (s.commitCommand 0x05 [quadrant.setWidth 32, zLevel.setWidth 32])

/-- SetPaletteColor (R149): futureUse is an ordinary field. -/
def execSetPaletteColor (futureUse : BitVec 10) (colorIdx red green blue : BitVec 8) (s : State) : Result :=
  .next (s.commitCommand 0x06
    [futureUse.setWidth 32, colorIdx.setWidth 32, red.setWidth 32, green.setWidth 32, blue.setWidth 32])

/-- DrawZOrderPixels (R150). -/
def execDrawZOrderPixels (drawMode : BitVec 2) (zStart zEnd : BitVec 16) (color : BitVec 8) (s : State) : Result :=
  .next (s.commitCommand 0x07 [drawMode.setWidth 32, zStart.setWidth 32, zEnd.setWidth 32, color.setWidth 32])

/-- DrawXYPixel, narrow revision (R151). -/
def execDrawXYPixel (drawMode : BitVec 2) (xPos yPos color : BitVec 8) (s : State) : Result :=
  .next (s.commitCommand 0x08 [drawMode.setWidth 32, xPos.setWidth 32, yPos.setWidth 32, color.setWidth 32])

/-- DrawRect, narrow revision (R152). -/
def execDrawRect (drawMode : BitVec 2) (xPos yPos width height color : BitVec 8) (s : State) : Result :=
  .next (s.commitCommand 0x09
    [drawMode.setWidth 32, xPos.setWidth 32, yPos.setWidth 32, width.setWidth 32, height.setWidth 32, color.setWidth 32])

/-- The command that OPCODE and FIELD0 to FIELD5 hold (R143): field j in FIELDj, its low bits as ENCODE takes them (R154). None for
an unregistered opcode. -/
def State.commandHeld (s : State) : Option Instr :=
  match s.opcode.toNat with
  | 0x01 => some (.setStripZLevel (s.field0.setWidth 8))
  | 0x02 => some (.setTimingOffset (s.field0.setWidth 24))
  | 0x03 => some (.setTimingScale (s.field0.setWidth 24))
  | 0x04 => some (.clearMemory (s.field0.setWidth 10))
  | 0x05 => some (.setZLevelQuad (s.field0.setWidth 2) (s.field1.setWidth 8))
  | 0x06 =>
    some (.setPaletteColor (s.field0.setWidth 10) (s.field1.setWidth 8) (s.field2.setWidth 8) (s.field3.setWidth 8) (s.field4.setWidth 8))
  | 0x07 => some (.drawZOrderPixels (s.field0.setWidth 2) (s.field1.setWidth 16) (s.field2.setWidth 16) (s.field3.setWidth 8))
  | 0x08 => some (.drawXYPixel (s.field0.setWidth 2) (s.field1.setWidth 8) (s.field2.setWidth 8) (s.field3.setWidth 8))
  | 0x09 =>
    some (.drawRect (s.field0.setWidth 2) (s.field1.setWidth 8) (s.field2.setWidth 8) (s.field3.setWidth 8) (s.field4.setWidth 8)
      (s.field5.setWidth 8))
  | _ => none

end Sys2Proof.Machine
end

