-- ==== Sys2Proof/Machine/Dispatch.lean ====
section
/-! DEFINITION. One arm per row of spec/opcode_table.json. -/

namespace Sys2Proof.Machine

def exec (i : Instr) (s : State) : Host.Outcome State Fault Refusal :=
  match i with
  -- the operations of the operation word (R82)
  | .readBits buf width => Sys2Proof.Machine.execReadBits buf width s
  | .writeBits buf width => Sys2Proof.Machine.execWriteBits buf width s
  | .encodeCommand => Sys2Proof.Machine.execEncode s
  | .decodeCommand buf => Sys2Proof.Machine.execDecode buf s
  | .initBridge => Sys2Proof.Machine.execInit s
  | .beginBus => Sys2Proof.Machine.execBegin s
  | .stageFrame => Sys2Proof.Machine.execStage s
  | .transferFrame => Sys2Proof.Machine.execTransfer s
  | .tearDown => Sys2Proof.Machine.execTearDown s
  -- the registered wire commands (R95)
  | .setStripZLevel zLevel => Sys2Proof.Machine.execSetStripZLevel zLevel s
  | .setTimingOffset offsetNanoseconds => Sys2Proof.Machine.execSetTimingOffset offsetNanoseconds s
  | .setTimingScale timeScaleFactor => Sys2Proof.Machine.execSetTimingScale timeScaleFactor s
  | .clearMemory padding => Sys2Proof.Machine.execClearMemory padding s
  | .setZLevelQuad quadrant zLevel => Sys2Proof.Machine.execSetZLevelQuad quadrant zLevel s
  | .setPaletteColor futureUse colorIdx red green blue => Sys2Proof.Machine.execSetPaletteColor futureUse colorIdx red green blue s
  | .drawZOrderPixels drawMode zStart zEnd color => Sys2Proof.Machine.execDrawZOrderPixels drawMode zStart zEnd color s
  | .drawXYPixel drawMode xPos yPos color => Sys2Proof.Machine.execDrawXYPixel drawMode xPos yPos color s
  | .drawRect drawMode xPos yPos width height color => Sys2Proof.Machine.execDrawRect drawMode xPos yPos width height color s

end Sys2Proof.Machine
end

