-- ==== Sys2Proof/Machine/Step.lean ====
section
/-! DEFINITION. One step of the machine: the next agent's turn (spec/00_scope.md R15). An operation word that decodes to Illegal
completes at once with IllegalOp and changes nothing else (spec/30_encoding.md R87; spec/60_exceptions.md R231). -/

namespace Sys2Proof.Machine

/-- One step. -/
def step (s : State) : Host.Outcome State Fault Refusal :=
  match s.nextMove with
  | .quiet t => .next t
  | .issue v t =>
    match decodeOpw v with
    | .ok i => exec i t
    | .illegal _ => .next (t.raise .illegalOp)

/-- The table word `w` placed where the very next step runs it. An operation word: the host writes it to OPW. The opcode byte of a
wire command: it is the image in CMD, and the host issues DECODE CMD. Log entry 3. -/
def State.withFetchWord (s : State) (nbits w : Nat) : State :=
  if nbits = 32 then s.withOpWord (BitVec.ofNat 32 w) else s.withImage (tableImage w)

end Sys2Proof.Machine
end

