-- ==== Sys2Proof/Machine/Composition.lean ====
section
/-! DEFINITION. A Master and a Slave on one bus (spec/42_bridge.md R203; spec/60_exceptions.md R244). They share no state and meet
only in the joint bus step. -/

namespace Sys2Proof.Machine

/-- The two devices. -/
structure Link where
  master : State
  slave : State
  deriving DecidableEq, Repr, Inhabited

/-- Which part of the composition takes the next step. -/
inductive LinkTurn where
  | master
  | slave
  | exchange
  deriving DecidableEq, Repr, Inhabited

/-- The words a device has in flight (R55). -/
def State.outWords (s : State) : List Word :=
  match s.xfer with
  | some x => x.out
  | none => []

/-- Both devices have latched a C, and the two differ: no composition of the spec (R203, U24; log entry 16). -/
def Link.mismatched (l : Link) : Bool :=
  l.master.bridge != .uninitialized && l.slave.bridge != .uninitialized && l.master.latched.cap != l.slave.latched.cap

/-- The joint bus step (R203), enabled when both have BUSY = 1: each completes with the other's outbound words. -/
def Link.exchange (l : Link) : Link :=
  if l.master.busy && l.slave.busy then ⟨l.master.completeTransfer l.slave.outWords, l.slave.completeTransfer l.master.outWords⟩ else l

/-- The Slave's own step: with a modelled peer, no completion but the joint step is enabled on it, so a bus turn of its own passes
(R203). -/
def slaveStep (s : State) : Result :=
  match s.env.turns with
  | .bus _ :: _ => .next s.afterTurn
  | .host :: _ => step s
  | .reset :: _ => step s
  | [] => step s

/-- One device's outcome, put back into the composition. -/
def Link.within (put : State → Link) : Result → Host.Outcome Link Fault Refusal
  | .next t => .next (put t)
  | .fault f => .fault f
  | .refused r => .refused r

/-- One step of the composition. The Master keeps every outcome it has alone (R203). -/
def Link.step (l : Link) (turn : LinkTurn) : Host.Outcome Link Fault Refusal :=
  if l.mismatched then .refused .capacityMismatch
  else
    match turn with
    | .master => Link.within (fun t => ⟨t, l.slave⟩) (Sys2Proof.Machine.step l.master)
    | .slave => Link.within (fun t => ⟨l.master, t⟩) (slaveStep l.slave)
    | .exchange => .next l.exchange

end Sys2Proof.Machine
end

