-- ==== Sys2Proof/Machine/SerializerFsm.lean ====
section
/-! DEFINITION. The serializer as the state machine of spec/41_command_codec.md R157 to R159. Its registers are not host-visible and
it is back in IDLE before the operation's step ends (R157; spec/00_scope.md R14), so they are no part of `State`: this file is the
inner view of the one step that `execEncode` and `execDecode` take (log entry 13). -/

namespace Sys2Proof.Machine

/-- The states of R157. -/
inductive SerState where
  | idle
  | lookup
  | clear
  | putOpc
  | putFld (j : Nat)
  | getLen
  | getOpc
  | checkTotal
  | getFld (j : Nat)
  | commit
  | fail (s : Status)
  deriving DecidableEq, Repr, Inhabited

/-- The internal registers of R157 (`v` is v_0 to v_5, each of which keeps its value until a GET_FLD writes it), with the operation's
own `op`, `S`, `b`, `size` and `L` (R158, R159). -/
structure Serializer where
  state : SerState
  p : Nat
  j : Nat
  img : Memory
  v : Vector Word 6
  op : BitVec 6
  sch : Schema
  buf : Memory
  size : Nat
  len : Nat
  deriving DecidableEq, Repr, Inhabited

/-- The serializer right after reset: IDLE (R157), every register 0. The spec gives the registers no reset value: DESIGN CHOICE, log
entry 21. -/
def Serializer.reset : Serializer where
  state := .idle
  p := 0
  j := 0
  img := Memory.zero
  v := Vector.replicate 6 0
  op := 0
  sch := []
  buf := Memory.zero
  size := 0
  len := 0

/-- The serializer and the host-visible state beside it. -/
structure Serializing where
  ser : Serializer
  host : State
  deriving DecidableEq, Repr

/-- The machine in IDLE, its registers as they were left. -/
def Serializer.idle (left : Serializer) : Serializer := { left with state := .idle }

/-- IDLE of R158: ENCODE issues. -/
def Serializing.issueEncode (c : Serializing) : Serializing :=
  { c with ser := { c.ser with op := c.host.opcode, state := .lookup } }

/-- IDLE of R159: DECODE issues. -/
def Serializing.issueDecode (c : Serializing) (buf : Buffer) : Serializing :=
  match c.host.resolveBuffer buf with
  | .error st => { c with ser := { c.ser with state := .fail st } }
  | .ok (b, size) => { c with ser := { c.ser with buf := b, size := size, state := .getLen } }

/-- One row of the table of R158. A state that the table does not have stays where it is. A LOOKUP that finds no row leaves `sch` as it
was (DESIGN CHOICE, log entry 22). -/
def Serializing.encodeRow (c : Serializing) : Serializing :=
  let r := c.ser
  match r.state with
  | .lookup =>
    match schemaOf r.op with
    | none => { c with ser := { r with state := .fail .unknownOpcode } }
    | some sch => { c with ser := { r with sch := sch, state := .clear } }
  | .clear => { c with ser := { r with img := Memory.zero, p := 0, state := .putOpc } }
  | .putOpc =>
    { c with ser := { r with img := bitWriteCore r.img 0 6 (r.op.setWidth 32), p := 6, j := 0, state := if 0 < r.sch.length then .putFld 0 else .commit } }
  | .putFld j =>
    { c with ser :=
      { r with
        img := bitWriteCore r.img r.p (r.sch.widthAt j) (c.host.fields.getD j 0)
        p := r.p + r.sch.widthAt j
        j := j + 1
        state := if j + 1 < r.sch.length then .putFld (j + 1) else .commit } }
  | .commit =>
    { ser := { r with state := .idle }
      host := { c.host with cmd := c.host.cmd.writeBytes 0 (r.img.readBytes 0 cmdBytes), encLen := BitVec.ofNat 4 (cdiv r.p 8), err := .ok } }
  | .fail st => { ser := { r with state := .idle }, host := c.host.raise st }
  | .idle => c
  | .getLen => c
  | .getOpc => c
  | .checkTotal => c
  | .getFld _ => c

/-- One row of the table of R159. COMMIT takes v_k for k < n; the FIELD registers from n on become 0 whatever v_k holds. A state that
the table does not have stays where it is. Two hidden leftovers of a failing path are the model's choice (DESIGN CHOICE, log entry 22):
CHECK_TOTAL writes j = 0 on its FAIL branch too, where the table gives it with GET_FLD(0) only; and a LOOKUP that finds no row leaves
`sch` as it was. -/
def Serializing.decodeRow (c : Serializing) : Serializing :=
  let r := c.ser
  match r.state with
  | .getLen =>
    { c with ser :=
      { r with
        len := c.host.len.toNat
        state := if r.size < c.host.len.toNat then .fail .outOfBounds else if c.host.len.toNat * 8 < 6 then .fail .truncatedBuffer else .getOpc } }
  | .getOpc => { c with ser := { r with op := (bitReadCore r.buf 0 6).setWidth 6, p := 6, state := .lookup } }
  | .lookup =>
    match schemaOf r.op with
    | none => { c with ser := { r with state := .fail .unknownOpcode } }
    | some sch => { c with ser := { r with sch := sch, state := .checkTotal } }
  | .checkTotal =>
    { c with ser :=
      { r with j := 0, state := if r.len * 8 < 6 + r.sch.payloadBits then .fail .truncatedBuffer else .getFld 0 } }
  | .getFld j =>
    { c with ser :=
      { r with
        v := r.v.setIfInBounds j (bitReadCore r.buf r.p (r.sch.widthAt j))
        p := r.p + r.sch.widthAt j
        j := j + 1
        state := if j + 1 < r.sch.length then .getFld (j + 1) else .commit } }
  | .commit => { ser := { r with state := .idle }, host := c.host.commitCommand r.op (r.v.toList.take r.sch.length) }
  | .fail st => { ser := { r with state := .idle }, host := c.host.raise st }
  | .idle => c
  | .clear => c
  | .putOpc => c
  | .putFld _ => c

/-- Follows a table from state to state until IDLE, for at most the given number of states; answers how many were visited. -/
def serRun (row : Serializing → Serializing) : Nat → Serializing → Nat × Serializing
  | 0, c => (0, c)
  | fuel + 1, c =>
    if c.ser.state = .idle then (0, c)
    else
      let rest := serRun row fuel (row c)
      (rest.1 + 1, rest.2)

/-- No path visits more states than this: DECODE of six fields visits 11 (R275). -/
def serFuel : Nat := 12

/-- ENCODE on the state machine: the number of states visited after IDLE, and where it ends. -/
def encodeOnFsm (left : Serializer) (s : State) : Nat × Serializing := serRun Serializing.encodeRow serFuel (Serializing.issueEncode ⟨left.idle, s⟩)

/-- DECODE on the state machine. -/
def decodeOnFsm (left : Serializer) (buf : Buffer) (s : State) : Nat × Serializing :=
  serRun Serializing.decodeRow serFuel (Serializing.issueDecode ⟨left.idle, s⟩ buf)

end Sys2Proof.Machine
end

