-- ==== Sys2Proof/Safety.lean ====
section
/-! DEFINITION. What counts as a sound state and a safe run, in the terms the statements use. -/

namespace Sys2Proof.Machine

/-- A capacity that CFG_CAP may hold on this build, and that C may therefore have (R8, R41). -/
abbrev LegalCap (b : Build) (c : Word) : Prop := c.toNat % 4 = 0 ∧ 4 ≤ c.toNat ∧ c.toNat ≤ b.cMax

/-- What the spec says holds between any two steps. -/
structure State.Coherent (s : State) : Prop where
  /-- CMD is in canonical form and has 8 bytes (R51). -/
  cmdWf : s.cmd.wf = true
  cmdWithin : s.cmd.within cmdBytes = true
  /-- SEND and RECV are in canonical form and have C_MAX bytes (R52, R53). -/
  sendWf : s.send.wf = true
  sendWithin : s.send.within s.build.cMax = true
  recvWf : s.recv.wf = true
  recvWithin : s.recv.within s.build.cMax = true
  /-- CFG_CAP holds a multiple of 4 from 4 to C_MAX (R41). -/
  cfgCapLegal : LegalCap s.build s.cfgCap
  /-- So does C, outside Uninitialized (R8). -/
  capacityLegal : s.bridge ≠ .uninitialized → LegalCap s.build s.latched.cap
  /-- XFER exists only while BUSY = 1 (R28, R55). -/
  busyIsXfer : s.busy = s.xfer.isSome
  /-- A TRANSFER is in flight in Ready only (R181). -/
  busyIsReady : s.busy = true → s.bridge = .ready
  /-- XFER holds C/4 words, and TMO on a Master only (R55). -/
  xferShape : ∀ x, s.xfer = some x → x.out.length = s.capacity / 4 ∧ x.tmo.isSome = decide (s.build.role = .master)
  /-- SEL is 1 while a Master TRANSFER is in flight, 0 otherwise (R30). -/
  selIsInFlight : s.sel = (decide (s.build.role = .master) && s.busy)
  /-- Outside Ready, STAGED and INGRESS_LEN are 0 (R31, R40, R184). -/
  stagedIsReady : s.bridge ≠ .ready → s.staged = false ∧ s.ingressLen = 0
  /-- A staged frame came from 1 to C ingress bytes (R192). -/
  stagedLength : s.staged = true → 1 ≤ s.ingressLen.toNat ∧ s.ingressLen.toNat ≤ s.capacity
  /-- On a Slave nothing was ever staged or counted (R192), and the Master-only registers hold 0 (R24). -/
  slaveRegisters : s.build.role = .slave →
    s.staged = false ∧ s.ingressLen = 0 ∧ s.timeout = 0 ∧ s.cfgFreq = 0 ∧ s.cfgSelpin = 0 ∧ s.cfgBindAddr = 0 ∧ s.cfgBindPort = 0
  /-- ENC_LEN is 2, 4 or 6 once an ENCODE has succeeded, and 0 before (R37). -/
  encLenPossible : s.encLen = 0 ∨ s.encLen = 2 ∨ s.encLen = 4 ∨ s.encLen = 6

/-- The buffer is there to be used: CMD in every bridge state (R51), SEND and RECV outside Uninitialized (R62, R120). -/
abbrev State.allocated (s : State) (buf : Buffer) : Prop := buf = .cmd ∨ s.bridge ≠ .uninitialized

/-- A bit-slice access that passes the checks of R111, R112 and R120. -/
abbrev State.sliceInBounds (s : State) (buf : Buffer) (width : BitVec 6) : Prop :=
  s.allocated buf ∧ 1 ≤ width.toNat ∧ width.toNat ≤ 32 ∧ s.len.toNat ≤ s.bufferSize buf ∧
    s.offset.toNat + width.toNat ≤ s.len.toNat * 8

/-- The environment premise "the peer never responds" (R197): no Complete is scheduled. -/
def State.peerSilent (s : State) : Prop := ∀ words, Turn.bus (.complete words) ∉ s.env.turns

/-- A state that a step sequence from another one reaches. -/
inductive Reaches (s : State) : State → Prop where
  | refl : Reaches s s
  | step {t u : State} : Reaches s t → step t = .next u → Reaches s u

end Sys2Proof.Machine
end

