-- ==== Sys2Proof/Certificates/Slice0/Obligations.lean ====
section
/-! DEFINITION. The statements for the provers. Each docstring names the rules of spec/ it formalises. -/

open Sys2Proof Sys2Proof.Machine

/-! Encoding. -/

/-- R87, R92, R144 to R152: encoding an instruction and decoding what it gives answers the instruction, for every row of the opcode
table and every operand its encoding admits. -/
def Obligations.DecodeOfEncodeIsTheInstruction : Prop :=
  ∀ i : Instr, i.wellFormed = true → decode (encode i) = .ok i

/-- R80, R87: an operation word has one meaning, and the encoder spells that meaning with that word. -/
def Obligations.EncodeOfDecodedWordIsTheWord : Prop :=
  ∀ (v : Word) (i : Instr), decodeOpw v = .ok i → i.isWire = false ∧ i.wellFormed = true ∧ encode i = .opWord v

/-- R85, R86, R89: the words that decode to Illegal are those with a reserved bit set, a reserved OP, a buffer select the operation
may not use, or a nonzero field the operation does not use; no others. -/
def Obligations.IllegalOperationWordsExactly : Prop :=
  ∀ v : Word,
    (∃ why, decodeOpw v = .illegal why) ↔
      (v.toNat / 2 ^ 12 ≠ 0 ∨
        (let op := v.toNat % 16
         let buf := v.toNat / 16 % 4
         let wid := v.toNat / 64 % 64
         (9 ≤ op) ∨ (buf = 3 ∧ (op = 0 ∨ op = 1 ∨ op = 3)) ∨ (buf = 2 ∧ op = 1) ∨
           (wid ≠ 0 ∧ 2 ≤ op ∧ op ≤ 8) ∨ (buf ≠ 0 ∧ (op = 2 ∨ (4 ≤ op ∧ op ≤ 8)))))

/-- R155, R156 (D18): an image that agrees with a wire command's encoding in its first 6 + W bits decodes to that command, whatever
its later bits hold. -/
def Obligations.WireDecodeIgnoresLaterBits : Prop :=
  ∀ (i : Instr) (sch : Schema) (image : List Byte), i.isWire = true →
    schemaOf (BitVec.ofNat 6 (streamNat (encode i).bytes)) = some sch →
    6 + sch.payloadBits ≤ image.length * 8 →
    streamNat image % 2 ^ (6 + sch.payloadBits) = streamNat (encode i).bytes % 2 ^ (6 + sch.payloadBits) →
    decodeWire image = .ok i

/-- Words and images written out in spec/30_encoding.md and spec/95_test_vectors.md decode to what stands beside them there. -/
def Obligations.SpecWordsDecodeAsTabled : Prop :=
  decodeOpw 0x00000200 = .ok (.readBits .cmd 8) ∧ decodeOpw 0x00000310 = .ok (.readBits .send 12) ∧
  decodeOpw 0x00000211 = .ok (.writeBits .send 8) ∧ decodeOpw 0x00000002 = .ok .encodeCommand ∧
  decodeOpw 0x00000023 = .ok (.decodeCommand .recv) ∧ decodeOpw 0x00000006 = .ok .stageFrame ∧
  decodeWire [0x01, 0x32] = .ok (.setStripZLevel 200) ∧
  decodeWire [0x06, 0x00, 0x05, 0xFF, 0x00, 0x80] = .ok (.setPaletteColor 0 5 255 0 128) ∧
  decodeWire [0xC9, 0x01, 0x02, 0x03, 0x04, 0x05] = .ok (.drawRect 3 1 2 3 4 5)

/-! The bit-slice unit. -/

/-- R114: BitReadCore in closed form. -/
def Obligations.BitReadCoreClosedForm : Prop :=
  ∀ (m : Memory) (o w : Nat), w ≤ 32 →
    (bitReadCore m o w).toNat = ((List.range w).map fun i => if streamBit m (o + i) then 2 ^ i else 0).sum ∧
    ∀ i, w ≤ i → (bitReadCore m o w).getLsbD i = false

/-- R116: BitWriteCore in closed form. -/
def Obligations.BitWriteCoreClosedForm : Prop :=
  ∀ (m : Memory) (o w : Nat) (v : Word), m.wf = true → w ≤ 32 → ∀ k,
    streamBit (bitWriteCore m o w v) k = if o ≤ k ∧ k < o + w then v.getLsbD (k - o) else streamBit m k

/-- R121: an access at offset o of width w reads and writes no byte outside o div 8 to (o + w - 1) div 8, at most five bytes. -/
def Obligations.SliceTouchesItsByteSpanOnly : Prop :=
  ∀ (m m' : Memory) (o w : Nat) (v : Word), m.wf = true → 1 ≤ w → w ≤ 32 →
    (∀ a, (a < o / 8 ∨ (o + w - 1) / 8 < a) → (bitWriteCore m o w v).read a = m.read a) ∧
    ((∀ a, o / 8 ≤ a → a ≤ (o + w - 1) / 8 → m.read a = m'.read a) → bitReadCore m o w = bitReadCore m' o w) ∧
    (o + w - 1) / 8 - o / 8 + 1 = (o % 8 + w + 7) / 8 ∧ (o % 8 + w + 7) / 8 ≤ 5

/-- R118, R35: a READBITS that passes its checks puts the stream bits into RESULT, zero-extended, and changes nothing else but
ERR. -/
def Obligations.ReadBitsPutsStreamBitsInResult : Prop :=
  ∀ (buf : Buffer) (wid : BitVec 6) (s : State), s.sliceInBounds buf wid →
    ∃ r : Word, exec (.readBits buf wid) s = .next { s with result := r, err := .ok } ∧
      ∀ i < 32, r.getLsbD i = (decide (i < wid.toNat) && streamBit (s.buffer buf) (s.offset.toNat + i))

/-- R118, R232, R233: which status a READBITS that fails a check reports, the first in the order NotReady, InvalidWidth,
OutOfBounds; nothing but ERR changes. -/
def Obligations.ReadBitsReportsItsFirstError : Prop :=
  ∀ (buf : Buffer) (wid : BitVec 6) (s : State),
    (¬ s.allocated buf → exec (.readBits buf wid) s = .next { s with err := .notReady }) ∧
    (s.allocated buf → (wid.toNat = 0 ∨ 32 < wid.toNat) → exec (.readBits buf wid) s = .next { s with err := .invalidWidth }) ∧
    (s.allocated buf → 1 ≤ wid.toNat → wid.toNat ≤ 32 →
      (s.bufferSize buf < s.len.toNat ∨ s.len.toNat * 8 < s.offset.toNat + wid.toNat) →
      exec (.readBits buf wid) s = .next { s with err := .outOfBounds })

/-- R119, R116: a WRITEBITS that passes its checks gives the stream bits from OFFSET the low bits of VALUE and leaves every other bit,
every byte outside the access, and everything else but ERR. -/
def Obligations.WriteBitsChangesItsTargetBitsOnly : Prop :=
  ∀ (wid : BitVec 6) (s : State),
    (s.sliceInBounds .cmd wid → s.cmd.wf = true →
      ∃ m : Memory, exec (.writeBits .cmd wid) s = .next { s with cmd := m, err := .ok } ∧ m.wf = true ∧
        (∀ k, streamBit m k = if s.offset.toNat ≤ k ∧ k < s.offset.toNat + wid.toNat then s.value.getLsbD (k - s.offset.toNat) else streamBit s.cmd k) ∧
        ∀ a, (a < s.offset.toNat / 8 ∨ (s.offset.toNat + wid.toNat - 1) / 8 < a) → m.read a = s.cmd.read a) ∧
    (s.sliceInBounds .send wid → s.send.wf = true →
      ∃ m : Memory, exec (.writeBits .send wid) s = .next { s with send := m, err := .ok } ∧ m.wf = true ∧
        (∀ k, streamBit m k = if s.offset.toNat ≤ k ∧ k < s.offset.toNat + wid.toNat then s.value.getLsbD (k - s.offset.toNat) else streamBit s.send k) ∧
        ∀ a, (a < s.offset.toNat / 8 ∨ (s.offset.toNat + wid.toNat - 1) / 8 < a) → m.read a = s.send.read a)

/-- R119, R232, R233: which status a WRITEBITS that fails a check reports; nothing but ERR changes. The first clause is the model's
choice: the term WRITEBITS RECV, which no encoding spells, ends with IllegalOp (log entry 17). -/
def Obligations.WriteBitsReportsItsFirstError : Prop :=
  ∀ (buf : Buffer) (wid : BitVec 6) (s : State),
    exec (.writeBits .recv wid) s = .next { s with err := .illegalOp } ∧
    (buf ≠ .recv → ¬ s.allocated buf → exec (.writeBits buf wid) s = .next { s with err := .notReady }) ∧
    (buf ≠ .recv → s.allocated buf → (wid.toNat = 0 ∨ 32 < wid.toNat) →
      exec (.writeBits buf wid) s = .next { s with err := .invalidWidth }) ∧
    (buf ≠ .recv → s.allocated buf → 1 ≤ wid.toNat → wid.toNat ≤ 32 →
      (s.bufferSize buf < s.len.toNat ∨ s.len.toNat * 8 < s.offset.toNat + wid.toNat) →
      exec (.writeBits buf wid) s = .next { s with err := .outOfBounds })

/-- R122: the three properties of the bit-slice unit, on the operations: round trip, isolation, failure atomicity. -/
def Obligations.SliceRoundTripIsolationAtomicity : Prop :=
  (∀ (buf : Buffer) (wid : BitVec 6) (s : State), buf ≠ .recv → s.sliceInBounds buf wid → (s.buffer buf).wf = true →
    ∃ t u, exec (.writeBits buf wid) s = .next t ∧ exec (.readBits buf wid) t = .next u ∧
      (s.value.toNat < 2 ^ wid.toNat → u.result = s.value) ∧
      ∀ k, (k < s.offset.toNat ∨ s.offset.toNat + wid.toNat ≤ k) → streamBit (t.buffer buf) k = streamBit (s.buffer buf) k) ∧
  (∀ (buf : Buffer) (wid : BitVec 6) (s : State), s.allocated buf → 1 ≤ wid.toNat → wid.toNat ≤ 32 →
    (s.bufferSize buf < s.len.toNat ∨ s.len.toNat * 8 < s.offset.toNat + wid.toNat) →
    (∃ t, exec (.readBits buf wid) s = .next t ∧ t.err = .outOfBounds ∧ t.cmd = s.cmd ∧ t.send = s.send ∧ t.recv = s.recv) ∧
    (buf ≠ .recv → ∃ t, exec (.writeBits buf wid) s = .next t ∧ t.err = .outOfBounds ∧ t.cmd = s.cmd ∧ t.send = s.send ∧ t.recv = s.recv))

/-! The command serializer. -/

/-- R154, R143, R91: ENCODE leaves in CMD the image of the command that OPCODE and the FIELD registers hold (their low bits), zeros
behind it, its byte length in ENC_LEN, and everything else but ERR as it was. -/
def Obligations.EncodeLeavesTheCommandImage : Prop :=
  ∀ (s : State) (i : Instr), s.commandHeld = some i → s.cmd.wf = true →
    ∃ (m : Memory) (n : BitVec 4), exec .encodeCommand s = .next { s with cmd := m, encLen := n, err := .ok } ∧
      n.toNat = (encode i).bytes.length ∧ (∀ k < 8, m.read k = (encode i).bytes.getD k 0) ∧ ∀ k, 8 ≤ k → m.read k = s.cmd.read k

/-- R154, R94: ENCODE of an unregistered opcode reports UnknownOpcode and changes nothing else; CMD and ENC_LEN stay. -/
def Obligations.EncodeOfUnregisteredOpcodeFails : Prop :=
  ∀ s : State, (s.opcode.toNat = 0 ∨ 10 ≤ s.opcode.toNat) → exec .encodeCommand s = .next { s with err := .unknownOpcode }

/-- R155, R156: where the LEN bytes at the start of the buffer hold a wire command, DECODE does what that command does: OPCODE and the
FIELD registers hold it, and everything else but ERR stays. What a wire command does by itself is the model's reading (log entry 8). -/
def Obligations.DecodePerformsTheWireCommand : Prop :=
  ∀ (buf : Buffer) (s : State) (i : Instr), s.allocated buf → s.len.toNat ≤ s.bufferSize buf →
    decodeWire ((s.buffer buf).readBytes 0 s.len.toNat) = .ok i →
    ∃ t, exec (.decodeCommand buf) s = .next t ∧ exec i s = .next t ∧ t.commandHeld = some i ∧
      t = { s with opcode := t.opcode, field0 := t.field0, field1 := t.field1, field2 := t.field2, field3 := t.field3, field4 := t.field4,
                   field5 := t.field5, err := .ok }

/-- R155, R162, R233: which status a DECODE that fails reports, the first in the order of R233; nothing but ERR changes. -/
def Obligations.DecodeReportsItsFirstError : Prop :=
  ∀ (buf : Buffer) (s : State) (op : BitVec 6), (∀ k < 6, op.getLsbD k = streamBit (s.buffer buf) k) →
    (¬ s.allocated buf → exec (.decodeCommand buf) s = .next { s with err := .notReady }) ∧
    (s.allocated buf → s.bufferSize buf < s.len.toNat → exec (.decodeCommand buf) s = .next { s with err := .outOfBounds }) ∧
    (s.allocated buf → s.len.toNat ≤ s.bufferSize buf → s.len.toNat = 0 →
      exec (.decodeCommand buf) s = .next { s with err := .truncatedBuffer }) ∧
    (s.allocated buf → s.len.toNat ≤ s.bufferSize buf → 1 ≤ s.len.toNat → (op.toNat = 0 ∨ 10 ≤ op.toNat) →
      exec (.decodeCommand buf) s = .next { s with err := .unknownOpcode }) ∧
    (∀ sch, s.allocated buf → s.len.toNat ≤ s.bufferSize buf → 1 ≤ s.len.toNat → schemaOf op = some sch →
      s.len.toNat * 8 < 6 + sch.payloadBits → exec (.decodeCommand buf) s = .next { s with err := .truncatedBuffer })

/-- R160, R161: ENCODE, a LEN from ENC_LEN to 8, DECODE CMD: OPCODE as before, each FIELD register of the schema as before modulo 2 to
its width (so as before, where its value fits), the others 0. -/
def Obligations.EncodeThenDecodeKeepsTheFields : Prop :=
  ∀ (s : State) (sch : Schema), schemaOf s.opcode = some sch → s.cmd.wf = true →
    ∃ t, exec .encodeCommand s = .next t ∧
      ∀ l : Word, t.encLen.toNat ≤ l.toNat → l.toNat ≤ 8 →
        ∃ u, exec (.decodeCommand .cmd) (t.hostWrite 0x0C l) = .next u ∧ u.opcode = s.opcode ∧
          ∀ j < 6,
            ((u.fields.getD j 0).toNat = if j < sch.length then (s.fields.getD j 0).toNat % 2 ^ sch.widthAt j else 0) ∧
            (j < sch.length → (s.fields.getD j 0).toNat < 2 ^ sch.widthAt j → u.fields.getD j 0 = s.fields.getD j 0)

/-- R144 to R152, R143: what each wire command leaves in OPCODE and FIELD0 to FIELD5; everything else but ERR stays. That this is the
effect of a wire command is read from DECODE's (log entry 8). -/
def Obligations.WireCommandsLoadTheirRegisters : Prop :=
  ∀ (s : State) (a b c d e : BitVec 8) (q : BitVec 2) (p : BitVec 10) (x y : BitVec 16) (z : BitVec 24),
    exec (.setStripZLevel a) s = .next
      { s with opcode := 1, field0 := a.setWidth 32, field1 := 0, field2 := 0, field3 := 0, field4 := 0, field5 := 0, err := .ok } ∧
    exec (.setTimingOffset z) s = .next
      { s with opcode := 2, field0 := z.setWidth 32, field1 := 0, field2 := 0, field3 := 0, field4 := 0, field5 := 0, err := .ok } ∧
    exec (.setTimingScale z) s = .next
      { s with opcode := 3, field0 := z.setWidth 32, field1 := 0, field2 := 0, field3 := 0, field4 := 0, field5 := 0, err := .ok } ∧
    exec (.clearMemory p) s = .next
      { s with opcode := 4, field0 := p.setWidth 32, field1 := 0, field2 := 0, field3 := 0, field4 := 0, field5 := 0, err := .ok } ∧
    exec (.setZLevelQuad q a) s = .next
      { s with opcode := 5, field0 := q.setWidth 32, field1 := a.setWidth 32, field2 := 0, field3 := 0, field4 := 0, field5 := 0, err := .ok } ∧
    exec (.setPaletteColor p a b c d) s = .next
      { s with opcode := 6, field0 := p.setWidth 32, field1 := a.setWidth 32, field2 := b.setWidth 32, field3 := c.setWidth 32,
               field4 := d.setWidth 32, field5 := 0, err := .ok } ∧
    exec (.drawZOrderPixels q x y a) s = .next
      { s with opcode := 7, field0 := q.setWidth 32, field1 := x.setWidth 32, field2 := y.setWidth 32, field3 := a.setWidth 32,
               field4 := 0, field5 := 0, err := .ok } ∧
    exec (.drawXYPixel q a b c) s = .next
      { s with opcode := 8, field0 := q.setWidth 32, field1 := a.setWidth 32, field2 := b.setWidth 32, field3 := c.setWidth 32,
               field4 := 0, field5 := 0, err := .ok } ∧
    exec (.drawRect q a b c d e) s = .next
      { s with opcode := 9, field0 := q.setWidth 32, field1 := a.setWidth 32, field2 := b.setWidth 32, field3 := c.setWidth 32,
               field4 := d.setWidth 32, field5 := e.setWidth 32, err := .ok }

/-- R143, R92: after a wire command, OPCODE and the FIELD registers hold that command, each field within its width and the registers
past the field count 0. That this is the effect of a wire command is read from DECODE's (log entry 8). -/
def Obligations.WireCommandIsHeldAfterwards : Prop :=
  ∀ (i : Instr) (s : State), i.isWire = true →
    ∃ t sch, exec i s = .next t ∧ t.commandHeld = some i ∧ schemaOf t.opcode = some sch ∧ sch.length ≤ 6 ∧
      ∀ j < 6, (t.fields.getD j 0).toNat < 2 ^ sch.widthAt j

/-- R158, R275: the encode path of the serializer's state machine computes exactly ENCODE, whatever its registers held, ends in IDLE,
and visits n + 4 states on a successful run. -/
def Obligations.EncodePathComputesEncode : Prop :=
  ∀ (left : Serializer) (s : State),
    ∃ t, exec .encodeCommand s = .next t ∧ (encodeOnFsm left s).2.host = t ∧ (encodeOnFsm left s).2.ser.state = .idle ∧
      ∀ sch, schemaOf s.opcode = some sch → (encodeOnFsm left s).1 = sch.length + 4

/-- R159, R275: the decode path of the serializer's state machine computes exactly DECODE, whatever its registers held, ends in IDLE,
and visits n + 5 states on a successful run. -/
def Obligations.DecodePathComputesDecode : Prop :=
  ∀ (left : Serializer) (buf : Buffer) (s : State),
    ∃ t, exec (.decodeCommand buf) s = .next t ∧ (decodeOnFsm left buf s).2.host = t ∧ (decodeOnFsm left buf s).2.ser.state = .idle ∧
      ∀ sch, t.err = .ok → schemaOf t.opcode = some sch → (decodeOnFsm left buf s).1 = sch.length + 5

/-! The frame bridge. -/

/-- R182, R186: INIT in Uninitialized latches the configuration (on a Slave the Master-only parts are 0), zero-fills the frame pair,
clears STAGED and INGRESS_LEN, forwards the configuration and goes to Initialized; nothing else changes. That the peripheral's event is
sent before the ingress source's is the model's choice (log entry 11). -/
def Obligations.InitLatchesAndAllocates : Prop :=
  ∀ s : State, s.bridge = .uninitialized →
    (s.build.role = .master →
      ∃ snd rcv : Memory, exec .initBridge s = .next
        { s with latched := ⟨s.cfgCap, s.cfgQdepth, s.cfgMode, s.cfgFreq, s.cfgSelpin, s.cfgBindAddr, s.cfgBindPort⟩
                 send := snd, recv := rcv, staged := false, ingressLen := 0, bridge := .initialized, err := .ok
                 env := { s.env with ports := .bindIngress s.cfgBindAddr s.cfgBindPort ::
                   .configurePeripheral s.cfgMode s.cfgCap s.cfgQdepth (some (s.cfgFreq, s.cfgSelpin)) :: s.env.ports } } ∧
        ∀ a, snd.read a = (if a < s.build.cMax then 0 else s.send.read a) ∧ rcv.read a = if a < s.build.cMax then 0 else s.recv.read a) ∧
    (s.build.role = .slave →
      ∃ snd rcv : Memory, exec .initBridge s = .next
        { s with latched := ⟨s.cfgCap, s.cfgQdepth, s.cfgMode, 0, 0, 0, 0⟩
                 send := snd, recv := rcv, staged := false, ingressLen := 0, bridge := .initialized, err := .ok
                 env := { s.env with ports := .configurePeripheral s.cfgMode s.cfgCap s.cfgQdepth none :: s.env.ports } } ∧
        ∀ a, snd.read a = (if a < s.build.cMax then 0 else s.send.read a) ∧ rcv.read a = if a < s.build.cMax then 0 else s.recv.read a)

/-- R183: BEGIN in Initialized makes the bridge Ready, signals begin, and changes nothing else but ERR. -/
def Obligations.BeginMakesTheBridgeReady : Prop :=
  ∀ s : State, s.bridge = .initialized →
    exec .beginBus s = .next { s with bridge := .ready, err := .ok, env := { s.env with ports := .beginOut :: s.env.ports } }

/-- R184, R48: TEARDOWN leaves the bridge Uninitialized, STAGED and INGRESS_LEN 0, and CAP_ACTIVE reading 0; it signals release where
there is something to release; SEND and RECV keep their bytes. -/
def Obligations.TearDownReleasesTheBridge : Prop :=
  ∀ s : State,
    (s.bridge = .uninitialized → exec .tearDown s = .next { s with staged := false, ingressLen := 0, err := .ok }) ∧
    (s.bridge ≠ .uninitialized → exec .tearDown s = .next
      { s with bridge := .uninitialized, staged := false, ingressLen := 0, err := .ok, env := { s.env with ports := .releaseOut :: s.env.ports } }) ∧
    ∀ t, exec .tearDown s = .next t → t.hostRead 0x5C = 0

/-- R181, R232: in the bridge states that forbid them, INIT and BEGIN report AlreadyInitialized, and BEGIN, STAGE and TRANSFER report
NotReady; nothing but ERR changes, and no ingress byte is drawn. -/
def Obligations.BridgeStateForbidsOperations : Prop :=
  ∀ s : State,
    (s.bridge ≠ .uninitialized → exec .initBridge s = .next { s with err := .alreadyInitialized }) ∧
    (s.bridge = .uninitialized → exec .beginBus s = .next { s with err := .notReady }) ∧
    (s.bridge = .ready → exec .beginBus s = .next { s with err := .alreadyInitialized }) ∧
    (s.bridge ≠ .ready → exec .stageFrame s = .next { s with err := .notReady }) ∧
    (s.bridge ≠ .ready → exec .transferFrame s = .next { s with err := .notReady })

/-- R190: a STAGE that finds no bytes leaves SEND, clears STAGED and INGRESS_LEN, and ends with OK: on a Master where the offer is empty,
on a Slave always (R189, R192). That an environment with no offer left counts as an empty offer is the model's choice (log entry 10). -/
def Obligations.StageWithoutBytesKeepsSend : Prop :=
  ∀ s : State, s.bridge = .ready →
    (s.build.role = .master → (s.env.ingress = [] ∨ ∃ rest, s.env.ingress = [] :: rest) →
      exec .stageFrame s = .next
        { s with staged := false, ingressLen := 0, err := .ok, env := { s.env with ingress := s.env.ingress.tail } }) ∧
    (s.build.role = .slave → exec .stageFrame s = .next { s with staged := false, ingressLen := 0, err := .ok })

/-- R191: a STAGE that finds more than C bytes consumes them all and copies none: SEND stays, STAGED = 0, INGRESS_LEN is their number
(saturated), and the status is FrameOverflow. -/
def Obligations.StageOverflowKeepsSend : Prop :=
  ∀ (s : State) (a : List Byte) (rest : List (List Byte)), s.bridge = .ready → s.build.role = .master → s.env.ingress = a :: rest →
    s.capacity < a.length →
    exec .stageFrame s = .next
      { s with staged := false, ingressLen := BitVec.ofNat 32 (min a.length (2 ^ 32 - 1)), err := .frameOverflow, env := { s.env with ingress := rest } }

/-- R192, R189: a STAGE that finds 1 to C bytes puts them at the start of SEND and zeros behind them up to C; the bytes past C stay, and
STAGED = 1 and INGRESS_LEN is their number. On a Slave it finds none. -/
def Obligations.StageCopiesAndPads : Prop :=
  (∀ (s : State) (a : List Byte) (rest : List (List Byte)), s.bridge = .ready → s.build.role = .master → s.env.ingress = a :: rest →
    1 ≤ a.length → a.length ≤ s.capacity → s.send.wf = true →
    ∃ m : Memory, exec .stageFrame s = .next
      { s with send := m, staged := true, ingressLen := BitVec.ofNat 32 a.length, err := .ok, env := { s.env with ingress := rest } } ∧
      m.wf = true ∧ ∀ k, m.read k = if k < a.length then a.getD k 0 else if k < s.capacity then 0 else s.send.read k) ∧
  ∀ s : State, s.build.role = .slave → s.bridge = .ready → exec .stageFrame s = .next { s with staged := false, ingressLen := 0, err := .ok }

/-- R196, R194, R66: the issue of TRANSFER in Ready snapshots SEND as C/4 words, bit j of word k being stream bit 32k + j; it latches
TIMEOUT and asserts the select line on a Master only; BUSY = 1, ERR is not written, and nothing else changes. -/
def Obligations.TransferIssueSnapshotsSend : Prop :=
  ∀ s : State, s.bridge = .ready →
    ∃ out : List Word,
      (s.build.role = .master → exec .transferFrame s = .next
        { s with xfer := some ⟨out, some s.timeout⟩, sel := true, busy := true
                 env := { s.env with ports := .xferStart out (some s.timeout) :: s.env.ports } }) ∧
      (s.build.role = .slave → exec .transferFrame s = .next
        { s with xfer := some ⟨out, none⟩, busy := true, env := { s.env with ports := .xferStart out none :: s.env.ports } }) ∧
      out.length = s.capacity / 4 ∧
      ∀ k < s.capacity / 4, ∀ j < 32, (out.getD k 0).getLsbD j = streamBit s.send (32 * k + j)

/-- R195, R198: a Complete puts the received words' bytes into RECV bytes 0 to C-1, clears BUSY, deasserts the select line on a Master,
writes OK and discards XFER; nothing else changes. On a Slave it does the same but for the select line. -/
def Obligations.CompletionFillsRecv : Prop :=
  ∀ (s : State) (words : List Word) (ts : List Turn), s.env.turns = .bus (.complete words) :: ts → s.busy = true →
    words.length = s.capacity / 4 → s.recv.wf = true →
    ∃ m : Memory,
      (s.build.role = .master → step s = .next
        { s with recv := m, sel := false, busy := false, err := .ok, xfer := none, env := { s.env with turns := ts } }) ∧
      (s.build.role = .slave → step s = .next
        { s with recv := m, busy := false, err := .ok, xfer := none, env := { s.env with turns := ts } }) ∧
      (∀ k < words.length, ∀ j < 4, m.read (4 * k + j) = (words.getD k 0).extractLsb' (8 * j) 8) ∧
      ∀ a, 4 * words.length ≤ a → m.read a = s.recv.read a

/-- R199: a Timeout on a Master makes RECV bytes 0 to C-1 free values, clears BUSY and the select line, writes TransferTimeout and
discards XFER; SEND and everything else stay. That the bytes are those of one draw of the free value is the model's form (log entry 4). -/
def Obligations.TimeoutAbandonsTheTransfer : Prop :=
  ∀ (s : State) (ts : List Turn), s.env.turns = .bus .timeout :: ts → s.busy = true → s.build.role = .master → s.recv.wf = true →
    ∃ m : Memory, step s = .next
      { s with recv := m, sel := false, busy := false, err := .transferTimeout, xfer := none, draws := s.draws + 1
               env := { s.env with turns := ts } } ∧
      ∀ a, m.read a = if a < s.capacity then Config.timeoutRecvByte s.draws a else s.recv.read a

/-- R197: on a Master with a TRANSFER in flight both outcomes are enabled, whatever XFER.TMO holds; with none in flight no outcome is,
and on a Slave Timeout is not. That a bus turn whose outcome is not enabled passes is the
model's choice (log entry 9). -/
def Obligations.BusOutcomesEnabledInFlightOnly : Prop :=
  (∀ s : State, s.build.role = .master → s.busy = true →
    s.completionEnabled .timeout = true ∧ ∀ words : List Word, words.length = s.capacity / 4 → s.completionEnabled (.complete words) = true) ∧
  (∀ (s : State) (o : Completion) (ts : List Turn), s.env.turns = .bus o :: ts → (s.busy = false ∨ (s.build.role = .slave ∧ o = .timeout)) →
    step s = .next { s with env := { s.env with turns := ts } })

/-- R201: a TRANSFER in flight ends by a completion that is enabled, or by reset, and by no other step. -/
def Obligations.TransferEndsByCompletionOrReset : Prop :=
  ∀ s t : State, step s = .next t → s.busy = true → t.busy = false →
    (∃ o ts, s.env.turns = .bus o :: ts ∧ s.completionEnabled o = true) ∨ ∃ ts, s.env.turns = .reset :: ts

/-- R199, R197, spec/95_test_vectors.md Scenario D: while the peer never responds, a Master's TRANSFER that ends without a reset ends
with TransferTimeout, the select line deasserted, SEND as it was. -/
def Obligations.SilentPeerMeansTimeout : Prop :=
  ∀ s t : State, s.Coherent → s.peerSilent → s.build.role = .master → s.busy = true → step s = .next t → t.busy = false →
    (∃ ts, s.env.turns = .reset :: ts) ∨ (t.err = .transferTimeout ∧ t.sel = false ∧ t.send = s.send ∧ t.xfer = none)

/-! The host. -/

/-- R25, R264: a host write to OPW while BUSY = 1 is held and issues nothing. R260: reset drops it. That the host makes no other access
while its write is held, so that its turns change nothing as long as BUSY = 1, is the model's choice (log entry 12). -/
def Obligations.BusyHoldsTheOpwWrite : Prop :=
  ∀ (s : State) (ts : List Turn) (v : Word), s.busy = true →
    (∀ off : BitVec 8, off.toNat < 4 → s.env.turns = .host :: ts → s.held = none → s.env.program[s.env.line]? = some (.wr off v) →
      step s = .next { s with held := some v, env := { s.env with turns := ts, line := s.env.line + 1 } }) ∧
    (s.env.turns = .host :: ts → s.held = some v → step s = .next { s with env := { s.env with turns := ts } }) ∧
    (s.env.turns = .reset :: ts → s.held = some v → ∃ t, step s = .next t ∧ t.held = none ∧ t.busy = false)

/-- R80, R25, R264: when the host's next access writes to OPW a word that decodes to an operation and BUSY = 0, the step is that
operation, in the state where the schedule and the host have moved on; and so is the step that lets a held write through (how the host's program
and its turns are held is the model's, log entries 9, 11 and 12). -/
def Obligations.StepRunsTheDecodedInstruction : Prop :=
  ∀ (s : State) (ts : List Turn) (v : Word) (i : Instr), s.env.turns = .host :: ts → s.busy = false → decodeOpw v = .ok i →
    (∀ off : BitVec 8, off.toNat < 4 → s.held = none → s.env.program[s.env.line]? = some (.wr off v) →
      step s = exec i { s with env := { s.env with turns := ts, line := s.env.line + 1 } }) ∧
    (s.held = some v → step s = exec i { s with held := none, env := { s.env with turns := ts } })

/-- R87, R231, R264: a word that decodes to Illegal completes with IllegalOp and changes nothing else: at once where BUSY = 0, and so
does the held word that is let through (in the host's next turn: log entry 12). -/
def Obligations.IllegalWordRaisesIllegalOpOnly : Prop :=
  ∀ (s : State) (ts : List Turn) (v : Word) (why : DecodeError), s.env.turns = .host :: ts → s.busy = false → decodeOpw v = .illegal why →
    (∀ off : BitVec 8, off.toNat < 4 → s.held = none → s.env.program[s.env.line]? = some (.wr off v) →
      step s = .next { s with err := .illegalOp, env := { s.env with turns := ts, line := s.env.line + 1 } }) ∧
    (s.held = some v → step s = .next { s with err := .illegalOp, held := none, env := { s.env with turns := ts } })

/-- R23, R99: a host read, alone or in a BEQ or BNE line, gives the host the register's value and changes nothing of TBX; the branches
go to their line where R99 says (the program, its line and the value last read are the model's environment, log entry 11). -/
def Obligations.HostReadsChangeNothing : Prop :=
  ∀ (s : State) (ts : List Turn) (off : BitVec 8), s.env.turns = .host :: ts → s.held = none →
    (s.env.program[s.env.line]? = some (.rd off) →
      step s = .next { s with env := { s.env with turns := ts, line := s.env.line + 1, lastRead := s.hostRead off } }) ∧
    (∀ hi lo value target, s.env.program[s.env.line]? = some (.beq off hi lo value target) →
      step s = .next
        { s with env := { s.env with
            turns := ts
            lastRead := s.hostRead off
            line := if readBitsOf (s.hostRead off) hi lo = value then target else s.env.line + 1 } }) ∧
    (∀ hi lo value target, s.env.program[s.env.line]? = some (.bne off hi lo value target) →
      step s = .next
        { s with env := { s.env with
            turns := ts
            lastRead := s.hostRead off
            line := if readBitsOf (s.hostRead off) hi lo ≠ value then target else s.env.line + 1 } })

/-! The register window. -/

/-- R32 to R47, R36, R43, R45, R47: a writable register reads back what was written to it, cut to its width; on a Master the
Master-only ones too. -/
def Obligations.RegistersReadBackWhatTheyStore : Prop :=
  ∀ (s : State) (v : Word),
    (∀ off ∈ [(0x08 : BitVec 8), 0x0C, 0x10, 0x20, 0x24, 0x28, 0x2C, 0x30, 0x34, 0x44], (s.hostWrite off v).hostRead off = v) ∧
    (s.hostWrite 0x18 v).hostRead 0x18 = BitVec.ofNat 32 (v.toNat % 2 ^ 6) ∧
    (s.hostWrite 0x48 v).hostRead 0x48 = BitVec.ofNat 32 (v.toNat % 2 ^ 2) ∧
    (s.build.role = .master →
      (∀ off ∈ [(0x38 : BitVec 8), 0x4C, 0x54], (s.hostWrite off v).hostRead off = v) ∧
      (s.hostWrite 0x50 v).hostRead 0x50 = BitVec.ofNat 32 (v.toNat % 2 ^ 8) ∧
      (s.hostWrite 0x58 v).hostRead 0x58 = BitVec.ofNat 32 (v.toNat % 2 ^ 16)) ∧
    (∀ off ∈ [(0x04 : BitVec 8), 0x14, 0x1C, 0x3C, 0x5C, 0x60, 0x64], s.hostWrite off v = s)

/-- R59: a host write to one register changes the value of no other (OPW stores nothing: what a write to it does is the issue of R25). -/
def Obligations.RegisterWritesLeaveTheOthers : Prop :=
  ∀ (s : State) (a b : BitVec 8) (v : Word), regAt a ≠ regAt b → (s.hostWrite a v).hostRead b = s.hostRead b

/-- R264, R269: a host write to an offset other than OPW's takes effect in its own step, whatever BUSY is, and changes neither the
status, nor the transfer in flight, nor the latched configuration, nor a buffer (how the host's program and its turns are held is the
model's, log entries 9 and 11). -/
def Obligations.HostWritesLeaveTheBridge : Prop :=
  ∀ (s : State) (off : BitVec 8) (v : Word), 4 ≤ off.toNat →
    (∀ ts : List Turn, s.env.turns = .host :: ts → s.held = none → s.env.program[s.env.line]? = some (.wr off v) →
      step s = .next (({ s with env := { s.env with turns := ts, line := s.env.line + 1 } } : State).hostWrite off v)) ∧
    ∃ t, t = s.hostWrite off v ∧
      statusWord t = statusWord s ∧ t.xfer = s.xfer ∧ t.latched = s.latched ∧ t.capacity = s.capacity ∧ t.cmd = s.cmd ∧ t.send = s.send ∧
      t.recv = s.recv ∧ t.result = s.result ∧ t.encLen = s.encLen ∧ t.ingressLen = s.ingressLen ∧ t.held = s.held ∧ t.env = s.env ∧
      t.build = s.build ∧ t.draws = s.draws

/-- R41: CFG_CAP stores legal(v), so a multiple of 4 from 4 to C_MAX; it holds C_MAX after reset, and INIT latches it as C. -/
def Obligations.CfgCapHoldsLegalCapacities : Prop :=
  ∀ (s : State) (v : Word),
    (((s.hostWrite 0x40 v).hostRead 0x40).toNat = min s.build.cMax (max 4 (v.toNat - v.toNat % 4)) ∧
      LegalCap s.build ((s.hostWrite 0x40 v).hostRead 0x40)) ∧
    ((State.resetOf s.build).hostRead 0x40).toNat = s.build.cMax ∧
    (s.bridge = .uninitialized → ∃ t, exec .initBridge s = .next t ∧ t.capacity = (s.hostRead 0x40).toNat)

/-- R24: on a Slave, TIMEOUT, CFG_FREQ, CFG_SELPIN, CFG_BIND_ADDR and CFG_BIND_PORT read as 0 and ignore writes. -/
def Obligations.SlaveMasterOnlyRegistersAreAbsent : Prop :=
  ∀ s : State, s.build.role = .slave → ∀ off ∈ [(0x38 : BitVec 8), 0x4C, 0x50, 0x54, 0x58],
    s.hostRead off = 0 ∧ ∀ v, s.hostWrite off v = s

/-- R22, R69, R23: an access reaches the register at its offset rounded down to a multiple of 4; offsets 0x68 to 0xFF read 0 and ignore
writes. -/
def Obligations.OffsetsRoundDownAndTheRestIsReserved : Prop :=
  ∀ (s : State) (off : BitVec 8) (v : Word),
    s.hostRead off = s.hostRead (BitVec.ofNat 8 (off.toNat - off.toNat % 4)) ∧
    s.hostWrite off v = s.hostWrite (BitVec.ofNat 8 (off.toNat - off.toNat % 4)) v ∧
    (0x68 ≤ off.toNat → s.hostRead off = 0 ∧ s.hostWrite off v = s)

/-- R26, R27, R29, R230: where the fields stand in the STATUS word, the number of each status and of each bridge state; ERR is never
above 9, STATE never 3, and bits [31:9] are 0. -/
def Obligations.StatusWordHoldsItsFields : Prop :=
  ∀ s : State,
    (s.hostRead 0x04).toNat % 16 =
      (match s.err with
        | .ok => 0
        | .outOfBounds => 1
        | .invalidWidth => 2
        | .unknownOpcode => 3
        | .truncatedBuffer => 4
        | .frameOverflow => 5
        | .alreadyInitialized => 6
        | .transferTimeout => 7
        | .notReady => 8
        | .illegalOp => 9) ∧
    (s.hostRead 0x04).toNat % 16 ≤ 9 ∧ (s.hostRead 0x04).getLsbD 4 = s.busy ∧
    (s.hostRead 0x04).toNat / 32 % 4 =
      (match s.bridge with
        | .uninitialized => 0
        | .initialized => 1
        | .ready => 2) ∧
    (s.hostRead 0x04).toNat / 32 % 4 ≤ 2 ∧ (s.hostRead 0x04).getLsbD 7 = s.sel ∧ (s.hostRead 0x04).getLsbD 8 = s.staged ∧
    (s.hostRead 0x04).toNat < 2 ^ 9

/-! The whole machine. -/

/-- R235, R238: no step stops the machine. -/
def Obligations.EveryStepAnswersNext : Prop := ∀ s : State, ∃ t, step s = .next t

/-- R8, R28, R30, R31, R37, R41, R51 to R55: every step keeps what the spec says holds between steps. -/
def Obligations.StepKeepsCoherence : Prop := ∀ s t : State, s.Coherent → step s = .next t → t.Coherent

/-- R260, R261: the machine is coherent after reset, whatever its build. -/
def Obligations.ResetIsCoherent : Prop := State.reset.Coherent ∧ ∀ b : Build, (State.resetOf b).Coherent

/-- R3, R49: no step changes the build parameters, so PARAM and PARAM_CMAX read the same for ever. -/
def Obligations.BuildParametersNeverChange : Prop :=
  ∀ s t : State, step s = .next t → t.build = s.build ∧ t.hostRead 0x60 = s.hostRead 0x60 ∧ t.hostRead 0x64 = s.hostRead 0x64

/-- R181, R29: STATE changes only by INIT from Uninitialized to Initialized, BEGIN from Initialized to Ready, TEARDOWN to Uninitialized,
and reset to Uninitialized. -/
def Obligations.BridgeStateMovesByItsOperations : Prop :=
  ∀ s t : State, step s = .next t → t.bridge ≠ s.bridge →
    (s.issuing = some .initBridge ∧ s.bridge = .uninitialized ∧ t.bridge = .initialized) ∨
    (s.issuing = some .beginBus ∧ s.bridge = .initialized ∧ t.bridge = .ready) ∨
    (s.issuing = some .tearDown ∧ t.bridge = .uninitialized) ∨
    ((∃ ts, s.env.turns = .reset :: ts) ∧ t.bridge = .uninitialized)

/-- R35: RESULT changes only by a READBITS that passes its checks, and by reset. -/
def Obligations.OnlyReadBitsWritesResult : Prop :=
  ∀ s t : State, step s = .next t → t.result ≠ s.result →
    (∃ buf wid, s.issuing = some (.readBits buf wid) ∧ s.sliceInBounds buf wid ∧
      t.result = bitReadCore (s.buffer buf) s.offset.toNat wid.toNat) ∨
    ((∃ ts, s.env.turns = .reset :: ts) ∧ t.result = 0)

/-- R63, R51 to R53: which steps change which buffer. -/
def Obligations.BuffersHaveTheirWritersOnly : Prop :=
  ∀ s t : State, step s = .next t →
    (t.cmd ≠ s.cmd → s.issuing = some .encodeCommand ∨ (∃ wid, s.issuing = some (.writeBits .cmd wid)) ∨ ∃ ts, s.env.turns = .reset :: ts) ∧
    (t.send ≠ s.send →
      s.issuing = some .initBridge ∨ s.issuing = some .stageFrame ∨ (∃ wid, s.issuing = some (.writeBits .send wid)) ∨
        ∃ ts, s.env.turns = .reset :: ts) ∧
    (t.recv ≠ s.recv →
      s.issuing = some .initBridge ∨ (∃ o ts, s.env.turns = .bus o :: ts ∧ s.completionEnabled o = true) ∨
        ∃ ts, s.env.turns = .reset :: ts)

/-- R72, R231, R232: every operation writes ERR, whatever ERR held, and only the issue of TRANSFER leaves it; an operation that ends with
an error changes ERR alone, but for STAGE with FrameOverflow, which writes STAGED and INGRESS_LEN and consumes the offer. -/
def Obligations.FailingOperationChangesErrAlone : Prop :=
  ∀ (i : Instr) (s t : State), exec i s = .next t →
    (¬ (i = .transferFrame ∧ s.bridge = .ready) →
      (∀ e : Status, exec i { s with err := e } = .next t) ∧
      (t.err ≠ .ok →
        t = { s with err := t.err } ∨
          (i = .stageFrame ∧ t.err = .frameOverflow ∧
            t = { s with staged := false, ingressLen := t.ingressLen, err := .frameOverflow, env := { s.env with ingress := t.env.ingress } }))) ∧
    (i = .transferFrame → s.bridge = .ready →
      t = { s with xfer := t.xfer, sel := t.sel, busy := true, env := { s.env with ports := t.env.ports } })

/-- R234: the statuses each operation can end with, once its word has decoded. That a wire command ends with OK is the model's reading
(log entry 8). -/
def Obligations.OperationsEndWithTheirStatuses : Prop :=
  ∀ (i : Instr) (s t : State), i.wellFormed = true → exec i s = .next t →
    match i with
    | .readBits _ _ => t.err ∈ [Status.ok, .outOfBounds, .invalidWidth, .notReady]
    | .writeBits _ _ => t.err ∈ [Status.ok, .outOfBounds, .invalidWidth, .notReady]
    | .encodeCommand => t.err ∈ [Status.ok, .unknownOpcode]
    | .decodeCommand _ => t.err ∈ [Status.ok, .outOfBounds, .unknownOpcode, .truncatedBuffer, .notReady]
    | .initBridge => t.err ∈ [Status.ok, .alreadyInitialized]
    | .beginBus => t.err ∈ [Status.ok, .alreadyInitialized, .notReady]
    | .stageFrame => t.err ∈ [Status.ok, .frameOverflow, .notReady]
    | .transferFrame => (t.busy = true ∧ t.err = s.err) ∨ t.err = .notReady
    | .tearDown => t.err = .ok
    | .setStripZLevel _ => t.err = .ok
    | .setTimingOffset _ => t.err = .ok
    | .setTimingScale _ => t.err = .ok
    | .clearMemory _ => t.err = .ok
    | .setZLevelQuad _ _ => t.err = .ok
    | .setPaletteColor _ _ _ _ _ => t.err = .ok
    | .drawZOrderPixels _ _ _ _ => t.err = .ok
    | .drawXYPixel _ _ _ _ => t.err = .ok
    | .drawRect _ _ _ _ _ _ => t.err = .ok

/-- R52 to R54, R260 (U11): while the bridge is Uninitialized, nothing shows what SEND, RECV and LATCHED_CFG hold: two machines that
differ in them alone differ in them alone after a step, and not at all once INIT has run. -/
def Obligations.UninitializedHidesTheFramePair : Prop :=
  ∀ (s s' : State), s' = { s with send := s'.send, recv := s'.recv, latched := s'.latched } →
    s.bridge = .uninitialized → s.busy = false →
    s.send.within s.build.cMax = true → s.recv.within s.build.cMax = true →
    s'.send.within s.build.cMax = true → s'.recv.within s.build.cMax = true →
    ∃ t t', step s = .next t ∧ step s' = .next t' ∧ t' = { t with send := t'.send, recv := t'.recv, latched := t'.latched } ∧
      (t.bridge ≠ .uninitialized → t' = t)

/-- R260, R261: a reset turn, whatever the state, gives every register and CMD its reset value, drops the transfer in flight and the held
write, and leaves the build and the environment. SEND, RECV and LATCHED_CFG are unspecified: that the model takes them from the free
values of its draw is the model's choice (log entries 5 and 7). -/
def Obligations.ResetStepGivesResetValues : Prop :=
  ∀ (s : State) (ts : List Turn), s.env.turns = .reset :: ts →
    ∃ (snd rcv : Memory) (lat : LatchedCfg), step s = .next
      { State.resetOf s.build with
        send := snd, recv := rcv, latched := lat, env := { s.env with turns := ts }, draws := s.draws + 1 } ∧
      lat.cap = Config.resetLatchedWord s.draws 0 ∧
      (s.send.wf = true → ∀ a, snd.read a = if a < s.build.cMax then Config.resetSendByte s.draws a else s.send.read a) ∧
      (s.recv.wf = true → ∀ a, rcv.read a = if a < s.build.cMax then Config.resetRecvByte s.draws a else s.recv.read a)

/-- R261, R49, R50: what the host reads right after reset at every offset: CFG_CAP and PARAM_CMAX give C_MAX, PARAM gives ROLE and
SCHEMA_REV, everything else 0. -/
def Obligations.ResetRegisterWindow : Prop :=
  ∀ (b : Build) (off : BitVec 8),
    ((State.resetOf b).hostRead off).toNat =
      if off.toNat / 4 = 0x10 ∨ off.toNat / 4 = 0x19 then b.cMax
      else if off.toNat / 4 = 0x18 then (if b.role = .master then 0x100 else 0x101) else 0

/-- R203, R194, R195: a Master and a Slave of equal C, both Ready, that issue TRANSFER and then take the joint step: each RECV holds the
other's SEND, and both end with OK and BUSY = 0. In a composition that is not refused, whatever step the Master takes alone (so each of
its outcomes of R197) stays its step; on the Slave no completion but the joint step is enabled, and its other steps stay. That a bus turn
of the Slave's own schedule, or a joint turn without both in flight, passes is the model's choice (log entry 16). -/
def Obligations.ExchangeSwapsTheFrames : Prop :=
  (∀ m s : State, m.build.role = .master → s.build.role = .slave → m.bridge = .ready → s.bridge = .ready → m.latched.cap = s.latched.cap →
    m.capacity % 4 = 0 → m.recv.wf = true → s.recv.wf = true →
    ∃ m' s' l, exec .transferFrame m = .next m' ∧ exec .transferFrame s = .next s' ∧ Link.step ⟨m', s'⟩ .exchange = .next l ∧
      (∀ a < m.capacity, l.master.recv.read a = s.send.read a ∧ l.slave.recv.read a = m.send.read a) ∧
      l.master.err = .ok ∧ l.slave.err = .ok ∧ l.master.busy = false ∧ l.slave.busy = false ∧ l.master.sel = false) ∧
  ∀ l : Link, (l.master.bridge = .uninitialized ∨ l.slave.bridge = .uninitialized ∨ l.master.latched.cap = l.slave.latched.cap) →
    (∀ t, step l.master = .next t → Link.step l .master = .next ⟨t, l.slave⟩) ∧
    (∀ o ts, l.slave.env.turns = .bus o :: ts →
      Link.step l .slave = .next ⟨l.master, { l.slave with env := { l.slave.env with turns := ts } }⟩) ∧
    (∀ t, (∀ o ts, l.slave.env.turns ≠ .bus o :: ts) → step l.slave = .next t → Link.step l .slave = .next ⟨l.master, t⟩) ∧
    ((l.master.busy = false ∨ l.slave.busy = false) → Link.step l .exchange = .next l)

/-- R203, U24: a composition of two devices that have latched different C is refused, whatever is to step. -/
def Obligations.MismatchedCompositionIsRefused : Prop :=
  ∀ (l : Link) (turn : LinkTurn), l.master.bridge ≠ .uninitialized → l.slave.bridge ≠ .uninitialized →
    l.master.latched.cap ≠ l.slave.latched.cap → Link.step l turn = .refused .capacityMismatch
end

