-- ==== Sys2Proof/Laws/Memory.lean ====
section
/-! SUPPORT. What the buffer primitives of Machine/Memory.lean do, said once: reads after writes, and the canonical form. -/

namespace Sys2Proof.Machine

theorem Memory.wfAbove_mono {lo lo' : Nat} (h : lo' ≤ lo) : ∀ {m : Memory}, Memory.wfAbove lo m = true → Memory.wfAbove lo' m = true
  | [], _ => rfl
  | (k, v) :: m, hm => by
    simp only [Memory.wfAbove, Bool.and_eq_true, decide_eq_true_eq] at hm ⊢
    exact ⟨⟨le_trans h hm.1.1, hm.1.2⟩, hm.2⟩

theorem Memory.read_below {lo i : Nat} (hi : i < lo) : ∀ {m : Memory}, Memory.wfAbove lo m = true → m.read i = unlistedByte
  | [], _ => rfl
  | (k, v) :: m, hm => by
    simp only [Memory.wfAbove, Bool.and_eq_true, decide_eq_true_eq] at hm
    simp only [Memory.read]
    rw [if_neg (by omega)]
    exact Memory.read_below (by omega) hm.2

theorem Memory.wfAbove_write {lo i : Nat} (hi : lo ≤ i) (v : Byte) :
    ∀ {m : Memory}, Memory.wfAbove lo m = true → Memory.wfAbove lo (m.write i v) = true
  | [], _ => by simp only [Memory.write]; split <;> simp_all [Memory.wfAbove]
  | (k, x) :: m, hm => by
    have hm0 := hm
    simp only [Memory.wfAbove, Bool.and_eq_true, decide_eq_true_eq] at hm
    simp only [Memory.write]
    by_cases hv : v = unlistedByte
    · rw [if_pos hv, if_pos hv]
      split
      · exact hm0
      · split
        · exact Memory.wfAbove_mono (by omega) hm.2
        · simp only [Memory.wfAbove, Bool.and_eq_true, decide_eq_true_eq]
          exact ⟨hm.1, Memory.wfAbove_write (by omega) v hm.2⟩
    · rw [if_neg hv, if_neg hv]
      split
      · simp only [Memory.wfAbove, Bool.and_eq_true, decide_eq_true_eq]
        exact ⟨⟨hi, hv⟩, ⟨by omega, hm.1.2⟩, hm.2⟩
      · split
        · simp only [Memory.wfAbove, Bool.and_eq_true, decide_eq_true_eq]
          exact ⟨⟨hi, hv⟩, by subst_vars; exact hm.2⟩
        · simp only [Memory.wfAbove, Bool.and_eq_true, decide_eq_true_eq]
          exact ⟨hm.1, Memory.wfAbove_write (by omega) v hm.2⟩

/-- A write keeps the canonical form. -/
theorem Memory.wf_write {m : Memory} (h : m.wf = true) (i : Nat) (v : Byte) : (m.write i v).wf = true :=
  Memory.wfAbove_write (Nat.zero_le i) v h

theorem Memory.read_write_same {lo : Nat} (i : Nat) (v : Byte) :
    ∀ {m : Memory}, Memory.wfAbove lo m = true → (m.write i v).read i = v
  | [], _ => by simp only [Memory.write]; split <;> simp_all [Memory.read]
  | (k, x) :: m, hm => by
    simp only [Memory.wfAbove, Bool.and_eq_true, decide_eq_true_eq] at hm
    simp only [Memory.write]
    by_cases hv : v = unlistedByte
    · rw [if_pos hv, if_pos hv]
      split
      · rw [hv, Memory.read_below (lo := i + 1) (by omega)]
        simp only [Memory.wfAbove, Bool.and_eq_true, decide_eq_true_eq]
        exact ⟨⟨by omega, hm.1.2⟩, hm.2⟩
      · split
        · rw [hv, Memory.read_below (lo := k + 1) (by omega) hm.2]
        · simp only [Memory.read]; rw [if_neg (by omega)]; exact Memory.read_write_same i v hm.2
    · rw [if_neg hv, if_neg hv]
      split
      · simp [Memory.read]
      · split
        · simp [Memory.read]
        · simp only [Memory.read]; rw [if_neg (by omega)]; exact Memory.read_write_same i v hm.2

theorem Memory.read_write_other {i j : Nat} (h : j ≠ i) (v : Byte) : ∀ (m : Memory), (m.write i v).read j = m.read j
  | [] => by simp only [Memory.write]; split <;> simp [Memory.read, Ne.symm h]
  | (k, x) :: m => by
    simp only [Memory.write]
    split
    · split
      · rfl
      · simp only [Memory.read]; rw [if_neg (Ne.symm h)]
    · split
      · subst_vars
        split <;> simp only [Memory.read] <;> simp [Ne.symm h]
      · simp only [Memory.read]; rw [Memory.read_write_other h v m]

/-- What a buffer reads after one write. -/
theorem Memory.read_write {m : Memory} (hm : m.wf = true) (i j : Nat) (v : Byte) :
    (m.write i v).read j = if j = i then v else m.read j := by
  split
  · subst_vars; exact Memory.read_write_same _ v hm
  · exact Memory.read_write_other ‹_› v m

theorem Memory.within_cons (k : Nat) (v : Byte) (m : Memory) (n : Nat) :
    Memory.within ((k, v) :: m) n = (decide (k < n) && m.within n) := rfl

theorem Memory.within_write {n i : Nat} (hi : i < n) (v : Byte) :
    ∀ {m : Memory}, m.within n = true → (m.write i v).within n = true
  | [], _ => by simp only [Memory.write]; split <;> simp [Memory.within, hi]
  | (k, x) :: m, h => by
    have h0 := h
    simp only [Memory.within_cons, Bool.and_eq_true, decide_eq_true_eq] at h
    simp only [Memory.write]
    split
    · split
      · exact h0
      · rw [Memory.within_cons, h0, decide_eq_true hi]; rfl
    · split
      · split
        · exact h.2
        · rw [Memory.within_cons, h.2, decide_eq_true hi]; rfl
      · rw [Memory.within_cons, Memory.within_write hi v h.2, decide_eq_true h.1]; rfl

/-- Past its size a buffer lists nothing. -/
theorem Memory.read_of_within {m : Memory} {n i : Nat} (h : m.within n = true) (hi : n ≤ i) : m.read i = unlistedByte := by
  induction m with
  | nil => rfl
  | cons c m ih =>
    obtain ⟨k, x⟩ := c
    simp only [Memory.within, List.all_cons, Bool.and_eq_true, decide_eq_true_eq] at h ih
    simp only [Memory.read]
    rw [if_neg (by omega)]
    exact ih h.2

theorem Memory.wf_writeBytes (bs : List Byte) : ∀ {m : Memory} (i : Nat), m.wf = true → (m.writeBytes i bs).wf = true := by
  induction bs with
  | nil => intro m i h; exact h
  | cons b bs ih => intro m i h; exact ih (i + 1) (Memory.wf_write h i b)

theorem Memory.within_writeBytes (bs : List Byte) :
    ∀ {m : Memory} {n : Nat} (i : Nat), i + bs.length ≤ n → m.within n = true → (m.writeBytes i bs).within n = true := by
  induction bs with
  | nil => intro m n i _ h; exact h
  | cons b bs ih =>
    intro m n i hn h
    simp only [List.length_cons] at hn
    exact ih (i + 1) (by omega) (Memory.within_write (by omega) b h)

/-- What a buffer reads after MemWrite. -/
theorem Memory.read_writeBytes (bs : List Byte) :
    ∀ {m : Memory} (i j : Nat), m.wf = true →
      (m.writeBytes i bs).read j = if i ≤ j ∧ j < i + bs.length then bs.getD (j - i) 0 else m.read j := by
  induction bs with
  | nil => intro m i j _; simp [Memory.writeBytes]
  | cons b bs ih =>
    intro m i j h
    simp only [Memory.writeBytes, List.length_cons]
    rw [ih (i + 1) j (Memory.wf_write h i b), Memory.read_write h]
    by_cases hj : j = i
    · subst hj; simp
    · by_cases hij : i ≤ j ∧ j < i + (bs.length + 1)
      · rw [if_pos hij, if_pos (by omega)]
        obtain ⟨d, rfl⟩ : ∃ d, j = i + 1 + d := ⟨j - (i + 1), by omega⟩
        rw [show i + 1 + d - (i + 1) = d by omega, show i + 1 + d - i = d + 1 by omega]
        simp
      · rw [if_neg hij, if_neg (by omega), if_neg hj]

/-- MemRead gives the bytes of the range. -/
theorem Memory.getD_readBytes (m : Memory) (i n k : Nat) (h : k < n) : (m.readBytes i n).getD k 0 = m.read (i + k) := by
  simp [Memory.readBytes, h]

@[simp] theorem Memory.length_readBytes (m : Memory) (i n : Nat) : (m.readBytes i n).length = n := by simp [Memory.readBytes]

theorem Memory.wfAbove_filter (p : Host.Cell → Bool) : ∀ {lo : Nat} {m : Memory}, Memory.wfAbove lo m = true → Memory.wfAbove lo (m.filter p) = true
  | _, [], _ => rfl
  | lo, (k, v) :: m, hm => by
    simp only [Memory.wfAbove, Bool.and_eq_true, decide_eq_true_eq] at hm
    simp only [List.filter_cons]
    split
    · simp only [Memory.wfAbove, Bool.and_eq_true, decide_eq_true_eq]
      exact ⟨hm.1, Memory.wfAbove_filter p hm.2⟩
    · exact Memory.wfAbove_mono (by omega) (Memory.wfAbove_filter p hm.2)

theorem Memory.wf_zeroFill {m : Memory} (h : m.wf = true) (n : Nat) : (m.zeroFill n).wf = true := Memory.wfAbove_filter _ h

theorem Memory.within_zeroFill {m : Memory} {k : Nat} (h : m.within k = true) (n : Nat) : (m.zeroFill n).within k = true := by
  simp only [Memory.within, List.all_eq_true, Memory.zeroFill, List.mem_filter] at h ⊢
  exact fun c hc => h c hc.1

/-- What a buffer reads after it is zero-filled up to `n`. -/
theorem Memory.read_zeroFill (n i : Nat) : ∀ (m : Memory), (m.zeroFill n).read i = if i < n then 0 else m.read i
  | [] => by simp [Memory.zeroFill, Memory.read, unlistedByte]
  | (k, x) :: m => by
    have ih := Memory.read_zeroFill n i m
    simp only [Memory.zeroFill] at ih ⊢
    by_cases hk : n ≤ k
    · rw [List.filter_cons_of_pos (by simpa using hk)]
      simp only [Memory.read]
      by_cases hki : k = i
      · subst hki; rw [if_pos rfl, if_pos rfl, if_neg (by omega)]
      · rw [if_neg hki, if_neg hki, ih]
    · rw [List.filter_cons_of_neg (by simpa using hk), ih]
      simp only [Memory.read]
      split
      · rfl
      · rw [if_neg (by omega)]

/-- Zero-filling all of a buffer leaves nothing listed. -/
theorem Memory.zeroFill_of_within {m : Memory} {n : Nat} (h : m.within n = true) : m.zeroFill n = Memory.zero := by
  simp only [Memory.within, List.all_eq_true, decide_eq_true_eq] at h
  simp only [Memory.zeroFill, Memory.zero, List.filter_eq_nil_iff, decide_eq_true_eq, not_le]
  exact h

theorem Memory.ext_above : ∀ {lo : Nat} {m m' : Memory}, Memory.wfAbove lo m = true → Memory.wfAbove lo m' = true →
    (∀ i, m.read i = m'.read i) → m = m'
  | _, [], [], _, _, _ => rfl
  | _, [], (k, v) :: m', _, h', he => by
    simp only [Memory.wfAbove, Bool.and_eq_true, decide_eq_true_eq] at h'
    have := he k
    simp only [Memory.read, if_true] at this
    exact absurd this.symm h'.1.2
  | _, (k, v) :: m, [], h, _, he => by
    simp only [Memory.wfAbove, Bool.and_eq_true, decide_eq_true_eq] at h
    have := he k
    simp only [Memory.read, if_true] at this
    exact absurd this h.1.2
  | lo, (k, v) :: m, (k', v') :: m', h, h', he => by
    have h0 := h
    have h0' := h'
    simp only [Memory.wfAbove, Bool.and_eq_true, decide_eq_true_eq] at h h'
    rcases lt_trichotomy k k' with hk | hk | hk
    · have := he k
      rw [Memory.read_below (lo := k') (m := (k', v') :: m') hk (by simp only [Memory.wfAbove, Bool.and_eq_true, decide_eq_true_eq]; exact ⟨⟨le_refl _, h'.1.2⟩, h'.2⟩)] at this
      simp only [Memory.read, if_true] at this
      exact absurd this h.1.2
    · subst hk
      have hv := he k
      simp only [Memory.read, if_true] at hv
      subst hv
      congr 1
      refine Memory.ext_above (lo := k + 1) h.2 h'.2 fun i => ?_
      by_cases hi : i < k + 1
      · rw [Memory.read_below hi h.2, Memory.read_below hi h'.2]
      · have := he i
        simp only [Memory.read] at this
        rwa [if_neg (by omega), if_neg (by omega)] at this
    · have := he k'
      rw [Memory.read_below (lo := k) (m := (k, v) :: m) hk (by simp only [Memory.wfAbove, Bool.and_eq_true, decide_eq_true_eq]; exact ⟨⟨le_refl _, h.1.2⟩, h.2⟩)] at this
      simp only [Memory.read, if_true] at this
      exact absurd this.symm h'.1.2

/-- Equal contents are equal data. -/
theorem Memory.ext_read {m m' : Memory} (h : m.wf = true) (h' : m'.wf = true) (he : ∀ i, m.read i = m'.read i) : m = m' :=
  Memory.ext_above h h' he

end Sys2Proof.Machine
end

