-- ==== Sys2Proof/Laws/BitSlice.lean ====
section
/-! SUPPORT. What the loops of the bit-slice unit do, bit by bit, and that they keep the canonical form. -/

namespace Sys2Proof.Machine

theorem testBit_mask (w i : Nat) : (mask w).testBit i = decide (i < w) := by
  simp [mask, Nat.testBit_two_pow_sub_one]

theorem noBits (got i : Nat) : (decide (got ≤ i) && decide (i < got + 0)) = false := by
  rw [← Bool.decide_and]; exact decide_eq_false (by omega)

/-- The bits BitReadCore's loop gathers, from any point of its run. -/
theorem bitReadLoop_testBit (m : Memory) : ∀ (fuel o w got v i : Nat), w ≤ fuel →
    (bitReadLoop m fuel o w got v).testBit i =
      (v.testBit i || (decide (got ≤ i) && decide (i < got + w) && streamBit m (o + (i - got))))
  | 0, o, w, got, v, i, h => by
    have : w = 0 := by omega
    subst this
    simp only [bitReadLoop]
    rw [noBits got i]; simp
  | fuel + 1, o, w, got, v, i, h => by
    simp only [bitReadLoop]
    split
    · subst_vars
      rw [noBits got i]; simp
    · rename_i hw
      have hc1 : 1 ≤ min w (8 - o % 8) := by omega
      have hc2 : min w (8 - o % 8) ≤ w := Nat.min_le_left _ _
      have hc3 : min w (8 - o % 8) ≤ 8 - o % 8 := Nat.min_le_right _ _
      generalize min w (8 - o % 8) = c at *
      rw [bitReadLoop_testBit m fuel (o + c) (w - c) (got + c) _ i (by omega)]
      rw [Nat.testBit_or, Nat.testBit_shiftLeft, Nat.testBit_and, testBit_mask, Nat.testBit_shiftRight, Bool.or_assoc]
      congr 1
      rw [show (m.read (o / 8)).toNat.testBit (o % 8 + (i - got)) = (m.read (o / 8)).getLsbD (o % 8 + (i - got)) from rfl]
      by_cases h1 : got ≤ i
      · obtain ⟨d, rfl⟩ : ∃ d, i = got + d := ⟨i - got, by omega⟩
        rw [show got + d - got = d by omega]
        by_cases h2 : d < c
        · have e1 : (o + d) / 8 = o / 8 := by omega
          have e2 : (o + d) % 8 = o % 8 + d := by omega
          simp [streamBit, e1, e2, h2, show ¬ (got + c ≤ got + d) by omega, show got + d < got + w by omega]
        · by_cases h3 : d < w
          · simp [h2, h3, show got + c ≤ got + d by omega, show got + d < got + c + (w - c) by omega,
              show o + c + (got + d - (got + c)) = o + d by omega]
          · simp [h2, h3, show ¬ (got + d < got + c + (w - c)) by omega]
      · simp [h1, show ¬ (got + c ≤ i) by omega]

theorem bitWriteLoop_wf (v : Nat) : ∀ (fuel : Nat) {m : Memory} (o w put : Nat), m.wf = true → (bitWriteLoop fuel m o w put v).wf = true
  | 0, _, _, _, _, h => h
  | fuel + 1, m, o, w, put, h => by
    simp only [bitWriteLoop]
    split
    · exact h
    · exact bitWriteLoop_wf v fuel _ _ _ (Memory.wf_write h _ _)

/-- BitWriteCore keeps the canonical form. -/
theorem bitWriteCore_wf {m : Memory} (h : m.wf = true) (o w : Nat) (v : Word) : (bitWriteCore m o w v).wf = true :=
  bitWriteLoop_wf _ _ _ _ _ h

theorem bitWriteLoop_within (v n : Nat) : ∀ (fuel : Nat) {m : Memory} (o w put : Nat), o + w ≤ n * 8 → m.within n = true →
    (bitWriteLoop fuel m o w put v).within n = true
  | 0, _, _, _, _, _, h => h
  | fuel + 1, m, o, w, put, hn, h => by
    simp only [bitWriteLoop]
    split
    · exact h
    · exact bitWriteLoop_within v n fuel _ _ _ (by omega) (Memory.within_write (by omega) _ h)

/-- An in-bounds BitWriteCore lists nothing past the buffer. -/
theorem bitWriteCore_within {m : Memory} {n o w : Nat} (hn : o + w ≤ n * 8) (h : m.within n = true) (v : Word) :
    (bitWriteCore m o w v).within n = true :=
  bitWriteLoop_within _ n _ _ _ _ hn h

/-- One turn of BitWriteCore's loop on one byte: the hole takes the chunk, the other bits stay. -/
theorem maskedByte_getLsbD (b : Byte) (part c s j : Nat) (hj : j < 8) (hp : ∀ i, c ≤ i → part.testBit i = false) :
    (BitVec.ofNat 8 ((b.toNat &&& (0xFF ^^^ (mask c <<< s))) ||| (part <<< s))).getLsbD j =
      if s ≤ j ∧ j < s + c then part.testBit (j - s) else b.getLsbD j := by
  have hff : Nat.testBit 255 j = true := by
    have : (255 : Nat) = 2 ^ 8 - 1 := by norm_num
    rw [this, Nat.testBit_two_pow_sub_one]; simpa using hj
  rw [BitVec.getLsbD_ofNat, Nat.testBit_or, Nat.testBit_and, Nat.testBit_xor, Nat.testBit_shiftLeft, Nat.testBit_shiftLeft, testBit_mask,
    hff, show b.toNat.testBit j = b.getLsbD j from rfl]
  by_cases h1 : s ≤ j
  · by_cases h2 : j < s + c
    · simp [h1, h2, hj, show j - s < c by omega]
    · simp [h1, h2, hj, show ¬ (j - s < c) by omega, hp (j - s) (by omega)]
  · simp [h1, hj]

/-- The bits BitWriteCore's loop leaves, from any point of its run. -/
theorem bitWriteLoop_streamBit (v k : Nat) : ∀ (fuel : Nat) (m : Memory) (o w put : Nat), m.wf = true → w ≤ fuel →
    streamBit (bitWriteLoop fuel m o w put v) k = if o ≤ k ∧ k < o + w then v.testBit (put + (k - o)) else streamBit m k
  | 0, m, o, w, put, _, h => by
    have : w = 0 := by omega
    subst this
    rw [if_neg (by omega)]; rfl
  | fuel + 1, m, o, w, put, hm, h => by
    simp only [bitWriteLoop]
    split
    · subst_vars; rw [if_neg (by omega)]
    · rename_i hw
      have hc1 : 1 ≤ min w (8 - o % 8) := by omega
      have hc2 : min w (8 - o % 8) ≤ w := Nat.min_le_left _ _
      have hc3 : min w (8 - o % 8) ≤ 8 - o % 8 := Nat.min_le_right _ _
      generalize min w (8 - o % 8) = c at *
      rw [bitWriteLoop_streamBit v k fuel _ _ _ _ (Memory.wf_write hm _ _) (by omega)]
      by_cases h1 : o + c ≤ k ∧ k < o + c + (w - c)
      · rw [if_pos h1, if_pos (by omega), show put + c + (k - (o + c)) = put + (k - o) by omega]
      · rw [if_neg h1]
        rw [show ∀ m', streamBit m' k = (Memory.read m' (k / 8)).getLsbD (k % 8) from fun _ => rfl, Memory.read_write hm]
        by_cases hb : k / 8 = o / 8
        · rw [if_pos hb, maskedByte_getLsbD _ _ c _ _ (by omega)]
          · by_cases h2 : o ≤ k ∧ k < o + w
            · rw [if_pos h2, if_pos (by omega), Nat.testBit_and, testBit_mask, Nat.testBit_shiftRight]
              simp [show k % 8 - o % 8 = k - o by omega, show k - o < c by omega]
            · rw [if_neg h2, if_neg (by omega), ← hb]; rfl
          · intro i hi; rw [Nat.testBit_and, testBit_mask]; simp [hi]
        · rw [if_neg hb, if_neg (by omega)]; rfl

end Sys2Proof.Machine
end

