-- ==== Sys2Proof/Laws/Converter.lean ====
section
/-! SUPPORT. What the byte-to-word converter gives, bit by bit outbound and byte by byte inbound. -/

namespace Sys2Proof.Machine

/-- Bit j of outbound word k is stream bit 32k + j of the frame. -/
theorem outboundWord_getLsbD (m : Memory) (k j : Nat) (hj : j < 32) : (outboundWord m k).getLsbD j = streamBit m (32 * k + j) := by
  unfold outboundWord streamBit
  simp only [BitVec.getLsbD_append]
  have : j < 8 ∨ (8 ≤ j ∧ j < 16) ∨ (16 ≤ j ∧ j < 24) ∨ (24 ≤ j) := by omega
  rcases this with h | h | h | h
  · simp [h, show (32 * k + j) / 8 = 4 * k by omega, show (32 * k + j) % 8 = j by omega]
  · simp [show ¬ j < 8 by omega, show j - 8 < 8 by omega, show (32 * k + j) / 8 = 4 * k + 1 by omega, show (32 * k + j) % 8 = j - 8 by omega]
  · simp [show ¬ j < 8 by omega, show ¬ (j - 8 < 8) by omega, show (j - 8 - 8 < 8) by omega, show (32 * k + j) / 8 = 4 * k + 2 by omega, show (32 * k + j) % 8 = j - 8 - 8 by omega]
  · simp [show ¬ j < 8 by omega, show ¬ (j - 8 < 8) by omega, show ¬ (j - 8 - 8 < 8) by omega, show (32 * k + j) / 8 = 4 * k + 3 by omega, show (32 * k + j) % 8 = j - 8 - 8 - 8 by omega]

theorem inboundFrame_cons (w : Word) (words : List Word) : inboundFrame (w :: words) =
    w.extractLsb' 0 8 :: w.extractLsb' 8 8 :: w.extractLsb' 16 8 :: w.extractLsb' 24 8 :: inboundFrame words := rfl

/-- Byte j of received word k is byte 4k + j of the inbound frame. -/
theorem inboundFrame_getD (words : List Word) : ∀ (k j : Nat), k < words.length → j < 4 →
    (inboundFrame words).getD (4 * k + j) 0 = (words.getD k 0).extractLsb' (8 * j) 8 := by
  induction words with
  | nil => intro k j hk; simp at hk
  | cons w words ih =>
    intro k j hk hj
    rw [inboundFrame_cons]
    cases k with
    | zero => interval_cases j <;> rfl
    | succ k =>
      rw [show 4 * (k + 1) + j = (4 * k + j) + 1 + 1 + 1 + 1 by ring]
      simp only [List.getD_cons_succ]
      exact ih k j (by simpa using hk) hj

/-- A received frame has four bytes for each word. -/
theorem inboundFrame_length (words : List Word) : (inboundFrame words).length = 4 * words.length := by
  induction words with
  | nil => rfl
  | cons w words ih => rw [inboundFrame_cons]; simp [ih]; ring

end Sys2Proof.Machine
end

