-- ==== Sys2Proof/Laws/Operations.lean ====
section
/-! SUPPORT. What the shared operations and the meanings can do, said once each. -/

namespace Sys2Proof.Machine

/-- ResolveBuffer succeeds on an allocated buffer, with its contents and its size. -/
theorem State.resolveBuffer_of_allocated {s : State} {buf : Buffer} (h : s.allocated buf) :
    s.resolveBuffer buf = .ok (s.buffer buf, s.bufferSize buf) := by
  cases buf <;> simp_all [State.allocated, State.resolveBuffer, State.buffer, State.bufferSize]

/-- ResolveBuffer fails on any other, with NotReady. -/
theorem State.resolveBuffer_of_not_allocated {s : State} {buf : Buffer} (h : ¬ s.allocated buf) :
    s.resolveBuffer buf = .error .notReady := by
  cases buf <;> simp_all [State.allocated, State.resolveBuffer]

/-- The checks of READBITS and WRITEBITS pass exactly on the accesses in bounds. -/
theorem State.sliceOperands_of_inBounds {s : State} {buf : Buffer} {width : BitVec 6} (h : s.sliceInBounds buf width) :
    s.sliceOperands buf width = .ok (s.buffer buf) := by
  obtain ⟨ha, h1, h2, h3, h4⟩ := h
  simp only [State.sliceOperands, State.resolveBuffer_of_allocated ha]
  rw [if_neg (by omega), if_neg (by omega), if_neg (by omega)]

theorem State.sliceOperands_ok {s : State} {buf : Buffer} {width : BitVec 6} {b : Memory} (h : s.sliceOperands buf width = .ok b) :
    s.sliceInBounds buf width ∧ b = s.buffer buf := by
  by_cases ha : s.allocated buf
  · simp only [State.sliceOperands, State.resolveBuffer_of_allocated ha] at h
    split at h
    · cases h
    · split at h
      · cases h
      · split at h
        · cases h
        · injection h with h
          exact ⟨⟨ha, by omega, by omega, by omega, by omega⟩, h.symm⟩
  · simp [State.sliceOperands, State.resolveBuffer_of_not_allocated ha] at h

/-- The checks of READBITS and WRITEBITS fail with one of three statuses. -/
theorem State.sliceOperands_error {s : State} {buf : Buffer} {width : BitVec 6} {st : Status} (h : s.sliceOperands buf width = .error st) :
    st = .notReady ∨ st = .invalidWidth ∨ st = .outOfBounds := by
  by_cases ha : s.allocated buf
  · simp only [State.sliceOperands, State.resolveBuffer_of_allocated ha] at h
    split at h
    · injection h with h; exact .inr (.inl h.symm)
    · split at h
      · injection h with h; exact .inr (.inr h.symm)
      · split at h
        · injection h with h; exact .inr (.inr h.symm)
        · cases h
  · simp only [State.sliceOperands, State.resolveBuffer_of_not_allocated ha] at h
    injection h with h; exact .inl h.symm

/-- READBITS: an error, or RESULT. -/
theorem execReadBits_cases {buf : Buffer} {width : BitVec 6} {s t : State} (h : execReadBits buf width s = .next t) :
    (∃ st, (st = .notReady ∨ st = .invalidWidth ∨ st = .outOfBounds) ∧ t = s.raise st) ∨
      (s.sliceInBounds buf width ∧ t = { s with result := bitReadCore (s.buffer buf) s.offset.toNat width.toNat, err := .ok }) := by
  unfold execReadBits at h
  split at h
  · rename_i st hs
    cases h
    exact .inl ⟨st, State.sliceOperands_error hs, rfl⟩
  · rename_i b hs
    cases h
    obtain ⟨hb, rfl⟩ := State.sliceOperands_ok hs
    exact .inr ⟨hb, rfl⟩

/-- WRITEBITS: an error, or the written buffer. -/
theorem execWriteBits_cases {buf : Buffer} {width : BitVec 6} {s t : State} (h : execWriteBits buf width s = .next t) :
    (buf = .recv ∧ t = s.raise .illegalOp) ∨
      (buf ≠ .recv ∧ ∃ st, (st = .notReady ∨ st = .invalidWidth ∨ st = .outOfBounds) ∧ t = s.raise st) ∨
      (buf ≠ .recv ∧ s.sliceInBounds buf width ∧
        t = (s.setBuffer buf (bitWriteCore (s.buffer buf) s.offset.toNat width.toNat s.value)).raise .ok) := by
  have key : ∀ r, (match s.sliceOperands buf width with
      | .error st => Host.Outcome.next (s.raise st)
      | .ok b => .next ((s.setBuffer buf (bitWriteCore b s.offset.toNat width.toNat s.value)).raise .ok)) = (.next r : Result) →
      (∃ st, (st = .notReady ∨ st = .invalidWidth ∨ st = .outOfBounds) ∧ r = s.raise st) ∨
        (s.sliceInBounds buf width ∧ r = (s.setBuffer buf (bitWriteCore (s.buffer buf) s.offset.toNat width.toNat s.value)).raise .ok) := by
    intro r hr
    split at hr
    · rename_i st hs
      cases hr
      exact .inl ⟨st, State.sliceOperands_error hs, rfl⟩
    · rename_i b hs
      cases hr
      obtain ⟨hb, rfl⟩ := State.sliceOperands_ok hs
      exact .inr ⟨hb, rfl⟩
  cases buf with
  | recv => cases h; exact .inl ⟨rfl, rfl⟩
  | cmd => rcases key t h with h | h
           · exact .inr (.inl ⟨by decide, h⟩)
           · exact .inr (.inr ⟨by decide, h⟩)
  | send => rcases key t h with h | h
            · exact .inr (.inl ⟨by decide, h⟩)
            · exact .inr (.inr ⟨by decide, h⟩)

/-- ENCODE: UnknownOpcode, or the image. -/
theorem execEncode_cases {s t : State} (h : execEncode s = .next t) :
    (schemaOf s.opcode = none ∧ t = s.raise .unknownOpcode) ∨
      ∃ sch, schemaOf s.opcode = some sch ∧
        t = { s with cmd := s.cmd.writeBytes 0 ((buildImage s.opcode sch s.fields).1.readBytes 0 cmdBytes),
                     encLen := BitVec.ofNat 4 (cdiv (buildImage s.opcode sch s.fields).2 8), err := .ok } := by
  unfold execEncode at h
  split at h
  · rename_i hs; cases h; exact .inl ⟨hs, rfl⟩
  · rename_i sch hs; cases h; exact .inr ⟨sch, hs, rfl⟩

/-- DECODE: an error, or a committed command. -/
theorem execDecode_cases {buf : Buffer} {s t : State} (h : execDecode buf s = .next t) :
    (∃ st, (st = .notReady ∨ st = .outOfBounds ∨ st = .truncatedBuffer ∨ st = .unknownOpcode) ∧ t = s.raise st) ∨
      ∃ op vals, t = s.commitCommand op vals := by
  unfold execDecode at h
  split at h
  · rename_i st hs
    cases h
    by_cases ha : s.allocated buf
    · rw [State.resolveBuffer_of_allocated ha] at hs; cases hs
    · rw [State.resolveBuffer_of_not_allocated ha] at hs
      injection hs with hs
      exact .inl ⟨st, .inl hs.symm, rfl⟩
  · split at h
    · cases h; exact .inl ⟨_, .inr (.inl rfl), rfl⟩
    · split at h
      · cases h; exact .inl ⟨_, .inr (.inr (.inl rfl)), rfl⟩
      · simp only at h
        split at h
        · cases h; exact .inl ⟨_, .inr (.inr (.inr rfl)), rfl⟩
        · split at h
          · cases h; exact .inl ⟨_, .inr (.inr (.inl rfl)), rfl⟩
          · cases h; exact .inr ⟨_, _, rfl⟩

/-- The events INIT sends out (R186). -/
def initPorts (s : State) : List PortEvent :=
  match s.build.role with
  | .master =>
    .bindIngress s.cfgBindAddr s.cfgBindPort :: .configurePeripheral s.cfgMode s.cfgCap s.cfgQdepth (some (s.cfgFreq, s.cfgSelpin)) :: s.env.ports
  | .slave => .configurePeripheral s.cfgMode s.cfgCap s.cfgQdepth none :: s.env.ports

/-- INIT: AlreadyInitialized, or the new frame pair. -/
theorem execInit_cases {s t : State} (h : execInit s = .next t) :
    (s.bridge ≠ .uninitialized ∧ t = s.raise .alreadyInitialized) ∨
      (s.bridge = .uninitialized ∧
        t = { s with latched := s.configToLatch, send := s.send.zeroFill s.build.cMax, recv := s.recv.zeroFill s.build.cMax, staged := false,
                     ingressLen := 0, bridge := .initialized, err := .ok, env := { s.env with ports := initPorts s } }) := by
  unfold execInit at h
  split at h
  · rename_i hb; cases h; exact .inl ⟨by rw [hb]; decide, rfl⟩
  · rename_i hb; cases h; exact .inl ⟨by rw [hb]; decide, rfl⟩
  · rename_i hb
    injection h with h
    refine .inr ⟨hb, ?_⟩
    rw [← h]
    cases hr : s.build.role <;> simp [State.forwardConfig, State.emit, initPorts, State.configToLatch, State.masterOnly, hr]

/-- BEGIN: NotReady, AlreadyInitialized, or Ready. -/
theorem execBegin_cases {s t : State} (h : execBegin s = .next t) :
    (s.bridge = .uninitialized ∧ t = s.raise .notReady) ∨ (s.bridge = .ready ∧ t = s.raise .alreadyInitialized) ∨
      (s.bridge = .initialized ∧ t = { s with bridge := .ready, err := .ok, env := { s.env with ports := .beginOut :: s.env.ports } }) := by
  unfold execBegin at h
  split at h <;> rename_i hb <;> cases h
  · exact .inl ⟨hb, rfl⟩
  · exact .inr (.inl ⟨hb, rfl⟩)
  · exact .inr (.inr ⟨hb, rfl⟩)

/-- TEARDOWN: Uninitialized, and a release where there was something to release. -/
theorem execTearDown_cases {s t : State} (h : execTearDown s = .next t) :
    ∃ ports, t = { s with bridge := .uninitialized, staged := false, ingressLen := 0, err := .ok, env := { s.env with ports := ports } } := by
  unfold execTearDown at h
  split at h <;> rename_i hb <;> cases h
  · exact ⟨s.env.ports, by rw [← hb]⟩
  · exact ⟨.releaseOut :: s.env.ports, rfl⟩
  · exact ⟨.releaseOut :: s.env.ports, rfl⟩

/-- STAGE: NotReady, or the three cases of R190, R191 and R192 for some draw, which is empty on a Slave. -/
theorem execStage_cases {s t : State} (h : execStage s = .next t) :
    (s.bridge ≠ .ready ∧ t = s.raise .notReady) ∨
      (s.bridge = .ready ∧ ∃ (a : List Byte) (ingress : List (List Byte)), (s.build.role = .slave → a = []) ∧
        ((t = { s with staged := false, ingressLen := 0, err := .ok, env := { s.env with ingress := ingress } }) ∨
          (s.capacity < a.length ∧
            t = { s with staged := false, ingressLen := saturate32 a.length, err := .frameOverflow, env := { s.env with ingress := ingress } }) ∨
          (1 ≤ a.length ∧ a.length ≤ s.capacity ∧
            t = { s with send := (s.send.zeroFill s.capacity).writeBytes 0 a, staged := true, ingressLen := BitVec.ofNat 32 a.length, err := .ok,
                         env := { s.env with ingress := ingress } }))) := by
  unfold execStage at h
  split at h <;> rename_i hb
  · cases h; exact .inl ⟨by rw [hb]; decide, rfl⟩
  · cases h; exact .inl ⟨by rw [hb]; decide, rfl⟩
  · injection h with h
    refine .inr ⟨hb, s.ingressDraw, s.consumeIngress.env.ingress, fun hr => by simp [State.ingressDraw, hr], ?_⟩
    have e : s.consumeIngress = { s with env := { s.env with ingress := s.consumeIngress.env.ingress } } := by
      cases hr : s.build.role <;> simp [State.consumeIngress, hr]
    have hc : s.consumeIngress.capacity = s.capacity := by rw [e]; rfl
    unfold State.stageBytes at h
    rw [hc] at h
    split at h
    · left; rw [← h]; conv_lhs => rw [e]
    · split at h
      · right; left; refine ⟨by omega, ?_⟩; rw [← h]; conv_lhs => rw [e]
      · right; right; refine ⟨by omega, by omega, ?_⟩; rw [← h]; conv_lhs => rw [e]

/-- TRANSFER: NotReady, or the transfer in flight. -/
theorem execTransfer_cases {s t : State} (h : execTransfer s = .next t) :
    (s.bridge ≠ .ready ∧ t = s.raise .notReady) ∨
      (s.bridge = .ready ∧
        t = { s with xfer := some ⟨outboundWords s.send s.capacity, s.latchTimeout⟩, sel := s.select, busy := true,
                     env := { s.env with ports := .xferStart (outboundWords s.send s.capacity) s.latchTimeout :: s.env.ports } }) := by
  unfold execTransfer at h
  split at h <;> rename_i hb <;> cases h
  · exact .inl ⟨by rw [hb]; decide, rfl⟩
  · exact .inl ⟨by rw [hb]; decide, rfl⟩
  · exact .inr ⟨hb, rfl⟩

/-- A bus turn: no step, a Complete, or a Timeout. -/
theorem State.busStep_cases (s : State) (o : Completion) :
    (s.completionEnabled o = false ∧ s.busStep o = s) ∨
      (s.completionEnabled o = true ∧ ∃ words, o = .complete words ∧ s.busStep o = s.completeTransfer words) ∨
      (s.completionEnabled o = true ∧ o = .timeout ∧ s.busStep o = s.timeoutTransfer) := by
  cases he : s.completionEnabled o with
  | false => exact .inl ⟨rfl, by simp [State.busStep, he]⟩
  | true =>
    cases o with
    | complete words => exact .inr (.inl ⟨rfl, words, rfl, by simp [State.busStep, he]⟩)
    | timeout => exact .inr (.inr ⟨rfl, rfl, by simp [State.busStep, he]⟩)

/-- A wire command commits itself. -/
theorem exec_wire {i : Instr} (hi : i.isWire = true) (s : State) : ∃ op vals, exec i s = .next (s.commitCommand op vals) := by
  cases i <;> simp only [Instr.isWire, Bool.false_eq_true] at hi <;> exact ⟨_, _, rfl⟩

/-- No meaning stops. -/
theorem exec_answers (i : Instr) (s : State) : ∃ t, exec i s = .next t := by
  cases i with
  | readBits buf width => simp only [exec, execReadBits]; split <;> exact ⟨_, rfl⟩
  | writeBits buf width => cases buf <;> simp only [exec, execWriteBits] <;> first | (split <;> exact ⟨_, rfl⟩) | exact ⟨_, rfl⟩
  | encodeCommand => simp only [exec, execEncode]; split <;> exact ⟨_, rfl⟩
  | decodeCommand buf =>
    simp only [exec, execDecode]
    split
    · exact ⟨_, rfl⟩
    · split
      · exact ⟨_, rfl⟩
      · split
        · exact ⟨_, rfl⟩
        · split
          · exact ⟨_, rfl⟩
          · split <;> exact ⟨_, rfl⟩
  | initBridge => simp only [exec, execInit]; split <;> exact ⟨_, rfl⟩
  | beginBus => simp only [exec, execBegin]; split <;> exact ⟨_, rfl⟩
  | stageFrame => simp only [exec, execStage]; split <;> exact ⟨_, rfl⟩
  | transferFrame => simp only [exec, execTransfer]; split <;> exact ⟨_, rfl⟩
  | tearDown => simp only [exec, execTearDown]; split <;> exact ⟨_, rfl⟩
  | setStripZLevel _ => exact ⟨_, rfl⟩
  | setTimingOffset _ => exact ⟨_, rfl⟩
  | setTimingScale _ => exact ⟨_, rfl⟩
  | clearMemory _ => exact ⟨_, rfl⟩
  | setZLevelQuad _ _ => exact ⟨_, rfl⟩
  | setPaletteColor _ _ _ _ _ => exact ⟨_, rfl⟩
  | drawZOrderPixels _ _ _ _ => exact ⟨_, rfl⟩
  | drawXYPixel _ _ _ _ => exact ⟨_, rfl⟩
  | drawRect _ _ _ _ _ _ => exact ⟨_, rfl⟩

end Sys2Proof.Machine
end

