-- ==== Sys2Proof/Laws/PerInstr.lean ====
section
/-! SUPPORT. Per instruction: what the encoder writes agrees with the instruction's row of spec/opcode_table.json. -/

namespace Sys2Proof.Laws.TableMatch

/-- The mask and the match of each row of spec/opcode_table.json. -/
def row : Instr → Nat × Nat
  | .readBits _ _ => (0xFFFFF00F, 0x00000000)
  | .writeBits _ _ => (0xFFFFF02F, 0x00000001)
  | .encodeCommand => (0xFFFFFFFF, 0x00000002)
  | .decodeCommand _ => (0xFFFFFFCF, 0x00000003)
  | .initBridge => (0xFFFFFFFF, 0x00000004)
  | .beginBus => (0xFFFFFFFF, 0x00000005)
  | .stageFrame => (0xFFFFFFFF, 0x00000006)
  | .transferFrame => (0xFFFFFFFF, 0x00000007)
  | .tearDown => (0xFFFFFFFF, 0x00000008)
  | .setStripZLevel _ => (0x3F, 0x01)
  | .setTimingOffset _ => (0x3F, 0x02)
  | .setTimingScale _ => (0x3F, 0x03)
  | .clearMemory _ => (0x3F, 0x04)
  | .setZLevelQuad _ _ => (0x3F, 0x05)
  | .setPaletteColor _ _ _ _ _ => (0x3F, 0x06)
  | .drawZOrderPixels _ _ _ _ => (0x3F, 0x07)
  | .drawXYPixel _ _ _ _ => (0x3F, 0x08)
  | .drawRect _ _ _ _ _ _ => (0x3F, 0x09)

/-- The bits the table numbers: the operation word, or byte 0 of the image. -/
def tableBits (i : Instr) : Nat :=
  match encode i with
  | .opWord w => w.toNat
  | .image bytes => (bytes.headD 0).toNat

/-- The encoding of a well-formed instruction matches its row under the row's mask. -/
def Statement (i : Instr) : Prop := i.wellFormed = true → tableBits i &&& (row i).1 = (row i).2

/-- Byte 0 of an image carries the opcode in its low six bits. -/
theorem opcode_in_byte0 {w : Nat} (x : BitVec w) (c : BitVec 6) :
    (BitVec.ofNat 8 ((x ++ c).toNat >>> (8 * 0))).toNat &&& 0x3F = c.toNat := by
  have e : (0x3F : Nat) = 2 ^ 6 - 1 := by norm_num
  rw [e, Nat.and_two_pow_sub_one_eq_mod, BitVec.toNat_ofNat, Nat.mod_mod_of_dvd _ (by norm_num), BitVec.toNat_append]
  apply Nat.eq_of_testBit_eq
  intro j
  rw [Nat.testBit_mod_two_pow, show 8 * 0 = 0 from rfl, Nat.shiftRight_zero, Nat.testBit_or, Nat.testBit_shiftLeft]
  by_cases hj : j < 6
  · simp [hj, show ¬ 6 ≤ j by omega]
  · have : c.toNat.testBit j = false := Nat.testBit_lt_two_pow (lt_of_lt_of_le c.isLt (Nat.pow_le_pow_right (by norm_num) (by omega)))
    simp [hj, this]

theorem readBits (buf : Buffer) (width : BitVec 6) : Statement (.readBits buf width) := by
  intro _; revert width; cases buf <;> decide
theorem writeBits (buf : Buffer) (width : BitVec 6) : Statement (.writeBits buf width) := by
  intro h; revert width; cases buf <;> decide
theorem encodeCommand : Statement .encodeCommand := fun _ => rfl
theorem decodeCommand (buf : Buffer) : Statement (.decodeCommand buf) := by cases buf <;> exact fun _ => rfl
theorem initBridge : Statement .initBridge := fun _ => rfl
theorem beginBus : Statement .beginBus := fun _ => rfl
theorem stageFrame : Statement .stageFrame := fun _ => rfl
theorem transferFrame : Statement .transferFrame := fun _ => rfl
theorem tearDown : Statement .tearDown := fun _ => rfl
theorem setStripZLevel (zLevel : BitVec 8) : Statement (.setStripZLevel zLevel) := fun _ => opcode_in_byte0 _ _
theorem setTimingOffset (offsetNanoseconds : BitVec 24) : Statement (.setTimingOffset offsetNanoseconds) := fun _ => opcode_in_byte0 _ _
theorem setTimingScale (timeScaleFactor : BitVec 24) : Statement (.setTimingScale timeScaleFactor) := fun _ => opcode_in_byte0 _ _
theorem clearMemory (padding : BitVec 10) : Statement (.clearMemory padding) := fun _ => opcode_in_byte0 _ _
theorem setZLevelQuad (quadrant : BitVec 2) (zLevel : BitVec 8) : Statement (.setZLevelQuad quadrant zLevel) := fun _ => opcode_in_byte0 _ _
theorem setPaletteColor (futureUse : BitVec 10) (colorIdx red green blue : BitVec 8) :
    Statement (.setPaletteColor futureUse colorIdx red green blue) := fun _ => opcode_in_byte0 _ _
theorem drawZOrderPixels (drawMode : BitVec 2) (zStart zEnd : BitVec 16) (color : BitVec 8) :
    Statement (.drawZOrderPixels drawMode zStart zEnd color) := fun _ => opcode_in_byte0 _ _
theorem drawXYPixel (drawMode : BitVec 2) (xPos yPos color : BitVec 8) : Statement (.drawXYPixel drawMode xPos yPos color) :=
  fun _ => opcode_in_byte0 _ _
theorem drawRect (drawMode : BitVec 2) (xPos yPos width height color : BitVec 8) :
    Statement (.drawRect drawMode xPos yPos width height color) := fun _ => opcode_in_byte0 _ _

end Sys2Proof.Laws.TableMatch
end

