-- ==== Sys2Proof/Laws/Registers.lean ====
section
/-! SUPPORT. What the register window does not depend on, and where each register sits. -/

namespace Sys2Proof.Machine

/-- Each register is reached at its own offset. -/
theorem regAt_regOffset (r : Reg) : regAt (regOffset r) = some r := by cases r <;> rfl

/-- A host read gives no part of the environment, and not the held write. -/
theorem State.hostRead_env (s : State) (offset : BitVec 8) (held : Option Word) (env : Env) :
    ({ s with held := held, env := env } : State).hostRead offset = s.hostRead offset := by
  unfold State.hostRead
  cases regAt offset with
  | none => rfl
  | some r => cases r <;> rfl

/-- On a Master a write to a Master-only register takes effect. -/
theorem State.onMaster_master {s : State} (h : s.build.role = .master) (t : State) : s.onMaster t = t := by simp [State.onMaster, h]

/-- On a Slave it is ignored. -/
theorem State.onMaster_slave {s : State} (h : s.build.role = .slave) (t : State) : s.onMaster t = s := by simp [State.onMaster, h]

theorem State.masterOnly_master {w : Nat} {s : State} (h : s.build.role = .master) (v : BitVec w) : s.masterOnly v = v := by
  simp [State.masterOnly, h]

theorem State.masterOnly_slave {w : Nat} {s : State} (h : s.build.role = .slave) (v : BitVec w) : s.masterOnly v = 0 := by
  simp [State.masterOnly, h]

end Sys2Proof.Machine
end

