-- ==== Sys2Proof/Laws/Schema.lean ====
section
/-! SUPPORT. The schema ROM row by row, and the bit length of what ENCODE builds from a row. -/

namespace Sys2Proof.Machine

/-- The nine rows of the ROM. -/
theorem schemaOf_rows {op : BitVec 6} {sch : Schema} (h : schemaOf op = some sch) :
    (op = 1 ∧ sch = [⟨"zLevel", 8⟩]) ∨ (op = 2 ∧ sch = [⟨"offsetNanoseconds", 24⟩]) ∨ (op = 3 ∧ sch = [⟨"timeScaleFactor", 24⟩]) ∨
    (op = 4 ∧ sch = [⟨"padding", 10⟩]) ∨ (op = 5 ∧ sch = [⟨"quadrant", 2⟩, ⟨"zLevel", 8⟩]) ∨
    (op = 6 ∧ sch = [⟨"futureUse", 10⟩, ⟨"colorIdx", 8⟩, ⟨"red", 8⟩, ⟨"green", 8⟩, ⟨"blue", 8⟩]) ∨
    (op = 7 ∧ sch = [⟨"drawMode", 2⟩, ⟨"zStart", 16⟩, ⟨"zEnd", 16⟩, ⟨"color", 8⟩]) ∨
    (op = 8 ∧ sch = [⟨"drawMode", 2⟩, ⟨"xPos", 8⟩, ⟨"yPos", 8⟩, ⟨"color", 8⟩]) ∨
    (op = 9 ∧ sch = [⟨"drawMode", 2⟩, ⟨"xPos", 8⟩, ⟨"yPos", 8⟩, ⟨"width", 8⟩, ⟨"height", 8⟩, ⟨"color", 8⟩]) := by
  have e : op = BitVec.ofNat 6 op.toNat := by simp
  have hlt := op.isLt
  unfold schemaOf at h
  generalize op.toNat = n at *
  subst e
  interval_cases n <;> simp_all

/-- An opcode outside 0x01 to 0x09 has no row (R94). -/
theorem schemaOf_unregistered {op : BitVec 6} (h : op.toNat = 0 ∨ 10 ≤ op.toNat) : schemaOf op = none := by
  cases hs : schemaOf op with
  | none => rfl
  | some sch =>
    rcases schemaOf_rows hs with ⟨rfl, _⟩ | ⟨rfl, _⟩ | ⟨rfl, _⟩ | ⟨rfl, _⟩ | ⟨rfl, _⟩ | ⟨rfl, _⟩ | ⟨rfl, _⟩ | ⟨rfl, _⟩ | ⟨rfl, _⟩ <;> simp at h

theorem putFields_bits (sch : Schema) : ∀ (img : Memory) (p : Nat) (vals : List Word), (putFields img p sch vals).2 = p + sch.payloadBits := by
  induction sch with
  | nil => intro img p vals; rfl
  | cons f fs ih =>
    intro img p vals
    simp only [putFields, ih, Schema.payloadBits, List.map_cons, List.sum_cons]
    omega

/-- The image of a row is 6 + W bits long (R141). -/
theorem buildImage_bits (op : BitVec 6) (sch : Schema) (vals : List Word) : (buildImage op sch vals).2 = 6 + sch.payloadBits :=
  putFields_bits sch _ _ _

end Sys2Proof.Machine
end

