-- ==== Sys2Proof/Laws/State.lean ====
section
/-! SUPPORT. What each named update of the state leaves in each field: one lemma per field per update, so that no later proof unfolds
a record update. -/

namespace Sys2Proof.Machine

/-! `State.raise`. -/

@[simp] theorem State.raise_build (s : State) (st : Status) : (s.raise st).build = s.build := rfl
@[simp] theorem State.raise_err (s : State) (st : Status) : (s.raise st).err = st := rfl
@[simp] theorem State.raise_busy (s : State) (st : Status) : (s.raise st).busy = s.busy := rfl
@[simp] theorem State.raise_bridge (s : State) (st : Status) : (s.raise st).bridge = s.bridge := rfl
@[simp] theorem State.raise_sel (s : State) (st : Status) : (s.raise st).sel = s.sel := rfl
@[simp] theorem State.raise_staged (s : State) (st : Status) : (s.raise st).staged = s.staged := rfl
@[simp] theorem State.raise_offset (s : State) (st : Status) : (s.raise st).offset = s.offset := rfl
@[simp] theorem State.raise_len (s : State) (st : Status) : (s.raise st).len = s.len := rfl
@[simp] theorem State.raise_value (s : State) (st : Status) : (s.raise st).value = s.value := rfl
@[simp] theorem State.raise_result (s : State) (st : Status) : (s.raise st).result = s.result := rfl
@[simp] theorem State.raise_opcode (s : State) (st : Status) : (s.raise st).opcode = s.opcode := rfl
@[simp] theorem State.raise_encLen (s : State) (st : Status) : (s.raise st).encLen = s.encLen := rfl
@[simp] theorem State.raise_field0 (s : State) (st : Status) : (s.raise st).field0 = s.field0 := rfl
@[simp] theorem State.raise_field1 (s : State) (st : Status) : (s.raise st).field1 = s.field1 := rfl
@[simp] theorem State.raise_field2 (s : State) (st : Status) : (s.raise st).field2 = s.field2 := rfl
@[simp] theorem State.raise_field3 (s : State) (st : Status) : (s.raise st).field3 = s.field3 := rfl
@[simp] theorem State.raise_field4 (s : State) (st : Status) : (s.raise st).field4 = s.field4 := rfl
@[simp] theorem State.raise_field5 (s : State) (st : Status) : (s.raise st).field5 = s.field5 := rfl
@[simp] theorem State.raise_timeout (s : State) (st : Status) : (s.raise st).timeout = s.timeout := rfl
@[simp] theorem State.raise_ingressLen (s : State) (st : Status) : (s.raise st).ingressLen = s.ingressLen := rfl
@[simp] theorem State.raise_cfgCap (s : State) (st : Status) : (s.raise st).cfgCap = s.cfgCap := rfl
@[simp] theorem State.raise_cfgQdepth (s : State) (st : Status) : (s.raise st).cfgQdepth = s.cfgQdepth := rfl
@[simp] theorem State.raise_cfgMode (s : State) (st : Status) : (s.raise st).cfgMode = s.cfgMode := rfl
@[simp] theorem State.raise_cfgFreq (s : State) (st : Status) : (s.raise st).cfgFreq = s.cfgFreq := rfl
@[simp] theorem State.raise_cfgSelpin (s : State) (st : Status) : (s.raise st).cfgSelpin = s.cfgSelpin := rfl
@[simp] theorem State.raise_cfgBindAddr (s : State) (st : Status) : (s.raise st).cfgBindAddr = s.cfgBindAddr := rfl
@[simp] theorem State.raise_cfgBindPort (s : State) (st : Status) : (s.raise st).cfgBindPort = s.cfgBindPort := rfl
@[simp] theorem State.raise_cmd (s : State) (st : Status) : (s.raise st).cmd = s.cmd := rfl
@[simp] theorem State.raise_send (s : State) (st : Status) : (s.raise st).send = s.send := rfl
@[simp] theorem State.raise_recv (s : State) (st : Status) : (s.raise st).recv = s.recv := rfl
@[simp] theorem State.raise_latched (s : State) (st : Status) : (s.raise st).latched = s.latched := rfl
@[simp] theorem State.raise_xfer (s : State) (st : Status) : (s.raise st).xfer = s.xfer := rfl
@[simp] theorem State.raise_held (s : State) (st : Status) : (s.raise st).held = s.held := rfl
@[simp] theorem State.raise_env (s : State) (st : Status) : (s.raise st).env = s.env := rfl
@[simp] theorem State.raise_draws (s : State) (st : Status) : (s.raise st).draws = s.draws := rfl

/-! `State.emit`. -/

@[simp] theorem State.emit_build (s : State) (e : PortEvent) : (s.emit e).build = s.build := rfl
@[simp] theorem State.emit_err (s : State) (e : PortEvent) : (s.emit e).err = s.err := rfl
@[simp] theorem State.emit_busy (s : State) (e : PortEvent) : (s.emit e).busy = s.busy := rfl
@[simp] theorem State.emit_bridge (s : State) (e : PortEvent) : (s.emit e).bridge = s.bridge := rfl
@[simp] theorem State.emit_sel (s : State) (e : PortEvent) : (s.emit e).sel = s.sel := rfl
@[simp] theorem State.emit_staged (s : State) (e : PortEvent) : (s.emit e).staged = s.staged := rfl
@[simp] theorem State.emit_offset (s : State) (e : PortEvent) : (s.emit e).offset = s.offset := rfl
@[simp] theorem State.emit_len (s : State) (e : PortEvent) : (s.emit e).len = s.len := rfl
@[simp] theorem State.emit_value (s : State) (e : PortEvent) : (s.emit e).value = s.value := rfl
@[simp] theorem State.emit_result (s : State) (e : PortEvent) : (s.emit e).result = s.result := rfl
@[simp] theorem State.emit_opcode (s : State) (e : PortEvent) : (s.emit e).opcode = s.opcode := rfl
@[simp] theorem State.emit_encLen (s : State) (e : PortEvent) : (s.emit e).encLen = s.encLen := rfl
@[simp] theorem State.emit_field0 (s : State) (e : PortEvent) : (s.emit e).field0 = s.field0 := rfl
@[simp] theorem State.emit_field1 (s : State) (e : PortEvent) : (s.emit e).field1 = s.field1 := rfl
@[simp] theorem State.emit_field2 (s : State) (e : PortEvent) : (s.emit e).field2 = s.field2 := rfl
@[simp] theorem State.emit_field3 (s : State) (e : PortEvent) : (s.emit e).field3 = s.field3 := rfl
@[simp] theorem State.emit_field4 (s : State) (e : PortEvent) : (s.emit e).field4 = s.field4 := rfl
@[simp] theorem State.emit_field5 (s : State) (e : PortEvent) : (s.emit e).field5 = s.field5 := rfl
@[simp] theorem State.emit_timeout (s : State) (e : PortEvent) : (s.emit e).timeout = s.timeout := rfl
@[simp] theorem State.emit_ingressLen (s : State) (e : PortEvent) : (s.emit e).ingressLen = s.ingressLen := rfl
@[simp] theorem State.emit_cfgCap (s : State) (e : PortEvent) : (s.emit e).cfgCap = s.cfgCap := rfl
@[simp] theorem State.emit_cfgQdepth (s : State) (e : PortEvent) : (s.emit e).cfgQdepth = s.cfgQdepth := rfl
@[simp] theorem State.emit_cfgMode (s : State) (e : PortEvent) : (s.emit e).cfgMode = s.cfgMode := rfl
@[simp] theorem State.emit_cfgFreq (s : State) (e : PortEvent) : (s.emit e).cfgFreq = s.cfgFreq := rfl
@[simp] theorem State.emit_cfgSelpin (s : State) (e : PortEvent) : (s.emit e).cfgSelpin = s.cfgSelpin := rfl
@[simp] theorem State.emit_cfgBindAddr (s : State) (e : PortEvent) : (s.emit e).cfgBindAddr = s.cfgBindAddr := rfl
@[simp] theorem State.emit_cfgBindPort (s : State) (e : PortEvent) : (s.emit e).cfgBindPort = s.cfgBindPort := rfl
@[simp] theorem State.emit_cmd (s : State) (e : PortEvent) : (s.emit e).cmd = s.cmd := rfl
@[simp] theorem State.emit_send (s : State) (e : PortEvent) : (s.emit e).send = s.send := rfl
@[simp] theorem State.emit_recv (s : State) (e : PortEvent) : (s.emit e).recv = s.recv := rfl
@[simp] theorem State.emit_latched (s : State) (e : PortEvent) : (s.emit e).latched = s.latched := rfl
@[simp] theorem State.emit_xfer (s : State) (e : PortEvent) : (s.emit e).xfer = s.xfer := rfl
@[simp] theorem State.emit_held (s : State) (e : PortEvent) : (s.emit e).held = s.held := rfl
@[simp] theorem State.emit_env (s : State) (e : PortEvent) : (s.emit e).env = { s.env with ports := e :: s.env.ports } := rfl
@[simp] theorem State.emit_draws (s : State) (e : PortEvent) : (s.emit e).draws = s.draws := rfl

/-! `State.commitCommand`. -/

@[simp] theorem State.commitCommand_build (s : State) (op : BitVec 6) (vals : List Word) : (s.commitCommand op vals).build = s.build := rfl
@[simp] theorem State.commitCommand_err (s : State) (op : BitVec 6) (vals : List Word) : (s.commitCommand op vals).err = .ok := rfl
@[simp] theorem State.commitCommand_busy (s : State) (op : BitVec 6) (vals : List Word) : (s.commitCommand op vals).busy = s.busy := rfl
@[simp] theorem State.commitCommand_bridge (s : State) (op : BitVec 6) (vals : List Word) : (s.commitCommand op vals).bridge = s.bridge := rfl
@[simp] theorem State.commitCommand_sel (s : State) (op : BitVec 6) (vals : List Word) : (s.commitCommand op vals).sel = s.sel := rfl
@[simp] theorem State.commitCommand_staged (s : State) (op : BitVec 6) (vals : List Word) : (s.commitCommand op vals).staged = s.staged := rfl
@[simp] theorem State.commitCommand_offset (s : State) (op : BitVec 6) (vals : List Word) : (s.commitCommand op vals).offset = s.offset := rfl
@[simp] theorem State.commitCommand_len (s : State) (op : BitVec 6) (vals : List Word) : (s.commitCommand op vals).len = s.len := rfl
@[simp] theorem State.commitCommand_value (s : State) (op : BitVec 6) (vals : List Word) : (s.commitCommand op vals).value = s.value := rfl
@[simp] theorem State.commitCommand_result (s : State) (op : BitVec 6) (vals : List Word) : (s.commitCommand op vals).result = s.result := rfl
@[simp] theorem State.commitCommand_opcode (s : State) (op : BitVec 6) (vals : List Word) : (s.commitCommand op vals).opcode = op := rfl
@[simp] theorem State.commitCommand_encLen (s : State) (op : BitVec 6) (vals : List Word) : (s.commitCommand op vals).encLen = s.encLen := rfl
@[simp] theorem State.commitCommand_field0 (s : State) (op : BitVec 6) (vals : List Word) : (s.commitCommand op vals).field0 = vals.getD 0 0 := rfl
@[simp] theorem State.commitCommand_field1 (s : State) (op : BitVec 6) (vals : List Word) : (s.commitCommand op vals).field1 = vals.getD 1 0 := rfl
@[simp] theorem State.commitCommand_field2 (s : State) (op : BitVec 6) (vals : List Word) : (s.commitCommand op vals).field2 = vals.getD 2 0 := rfl
@[simp] theorem State.commitCommand_field3 (s : State) (op : BitVec 6) (vals : List Word) : (s.commitCommand op vals).field3 = vals.getD 3 0 := rfl
@[simp] theorem State.commitCommand_field4 (s : State) (op : BitVec 6) (vals : List Word) : (s.commitCommand op vals).field4 = vals.getD 4 0 := rfl
@[simp] theorem State.commitCommand_field5 (s : State) (op : BitVec 6) (vals : List Word) : (s.commitCommand op vals).field5 = vals.getD 5 0 := rfl
@[simp] theorem State.commitCommand_timeout (s : State) (op : BitVec 6) (vals : List Word) : (s.commitCommand op vals).timeout = s.timeout := rfl
@[simp] theorem State.commitCommand_ingressLen (s : State) (op : BitVec 6) (vals : List Word) : (s.commitCommand op vals).ingressLen = s.ingressLen := rfl
@[simp] theorem State.commitCommand_cfgCap (s : State) (op : BitVec 6) (vals : List Word) : (s.commitCommand op vals).cfgCap = s.cfgCap := rfl
@[simp] theorem State.commitCommand_cfgQdepth (s : State) (op : BitVec 6) (vals : List Word) : (s.commitCommand op vals).cfgQdepth = s.cfgQdepth := rfl
@[simp] theorem State.commitCommand_cfgMode (s : State) (op : BitVec 6) (vals : List Word) : (s.commitCommand op vals).cfgMode = s.cfgMode := rfl
@[simp] theorem State.commitCommand_cfgFreq (s : State) (op : BitVec 6) (vals : List Word) : (s.commitCommand op vals).cfgFreq = s.cfgFreq := rfl
@[simp] theorem State.commitCommand_cfgSelpin (s : State) (op : BitVec 6) (vals : List Word) : (s.commitCommand op vals).cfgSelpin = s.cfgSelpin := rfl
@[simp] theorem State.commitCommand_cfgBindAddr (s : State) (op : BitVec 6) (vals : List Word) : (s.commitCommand op vals).cfgBindAddr = s.cfgBindAddr := rfl
@[simp] theorem State.commitCommand_cfgBindPort (s : State) (op : BitVec 6) (vals : List Word) : (s.commitCommand op vals).cfgBindPort = s.cfgBindPort := rfl
@[simp] theorem State.commitCommand_cmd (s : State) (op : BitVec 6) (vals : List Word) : (s.commitCommand op vals).cmd = s.cmd := rfl
@[simp] theorem State.commitCommand_send (s : State) (op : BitVec 6) (vals : List Word) : (s.commitCommand op vals).send = s.send := rfl
@[simp] theorem State.commitCommand_recv (s : State) (op : BitVec 6) (vals : List Word) : (s.commitCommand op vals).recv = s.recv := rfl
@[simp] theorem State.commitCommand_latched (s : State) (op : BitVec 6) (vals : List Word) : (s.commitCommand op vals).latched = s.latched := rfl
@[simp] theorem State.commitCommand_xfer (s : State) (op : BitVec 6) (vals : List Word) : (s.commitCommand op vals).xfer = s.xfer := rfl
@[simp] theorem State.commitCommand_held (s : State) (op : BitVec 6) (vals : List Word) : (s.commitCommand op vals).held = s.held := rfl
@[simp] theorem State.commitCommand_env (s : State) (op : BitVec 6) (vals : List Word) : (s.commitCommand op vals).env = s.env := rfl
@[simp] theorem State.commitCommand_draws (s : State) (op : BitVec 6) (vals : List Word) : (s.commitCommand op vals).draws = s.draws := rfl

/-! `State.completeTransfer`. -/

@[simp] theorem State.completeTransfer_build (s : State) (words : List Word) : (s.completeTransfer words).build = s.build := rfl
@[simp] theorem State.completeTransfer_err (s : State) (words : List Word) : (s.completeTransfer words).err = .ok := rfl
@[simp] theorem State.completeTransfer_busy (s : State) (words : List Word) : (s.completeTransfer words).busy = false := rfl
@[simp] theorem State.completeTransfer_bridge (s : State) (words : List Word) : (s.completeTransfer words).bridge = s.bridge := rfl
@[simp] theorem State.completeTransfer_sel (s : State) (words : List Word) : (s.completeTransfer words).sel = s.deselect := rfl
@[simp] theorem State.completeTransfer_staged (s : State) (words : List Word) : (s.completeTransfer words).staged = s.staged := rfl
@[simp] theorem State.completeTransfer_offset (s : State) (words : List Word) : (s.completeTransfer words).offset = s.offset := rfl
@[simp] theorem State.completeTransfer_len (s : State) (words : List Word) : (s.completeTransfer words).len = s.len := rfl
@[simp] theorem State.completeTransfer_value (s : State) (words : List Word) : (s.completeTransfer words).value = s.value := rfl
@[simp] theorem State.completeTransfer_result (s : State) (words : List Word) : (s.completeTransfer words).result = s.result := rfl
@[simp] theorem State.completeTransfer_opcode (s : State) (words : List Word) : (s.completeTransfer words).opcode = s.opcode := rfl
@[simp] theorem State.completeTransfer_encLen (s : State) (words : List Word) : (s.completeTransfer words).encLen = s.encLen := rfl
@[simp] theorem State.completeTransfer_field0 (s : State) (words : List Word) : (s.completeTransfer words).field0 = s.field0 := rfl
@[simp] theorem State.completeTransfer_field1 (s : State) (words : List Word) : (s.completeTransfer words).field1 = s.field1 := rfl
@[simp] theorem State.completeTransfer_field2 (s : State) (words : List Word) : (s.completeTransfer words).field2 = s.field2 := rfl
@[simp] theorem State.completeTransfer_field3 (s : State) (words : List Word) : (s.completeTransfer words).field3 = s.field3 := rfl
@[simp] theorem State.completeTransfer_field4 (s : State) (words : List Word) : (s.completeTransfer words).field4 = s.field4 := rfl
@[simp] theorem State.completeTransfer_field5 (s : State) (words : List Word) : (s.completeTransfer words).field5 = s.field5 := rfl
@[simp] theorem State.completeTransfer_timeout (s : State) (words : List Word) : (s.completeTransfer words).timeout = s.timeout := rfl
@[simp] theorem State.completeTransfer_ingressLen (s : State) (words : List Word) : (s.completeTransfer words).ingressLen = s.ingressLen := rfl
@[simp] theorem State.completeTransfer_cfgCap (s : State) (words : List Word) : (s.completeTransfer words).cfgCap = s.cfgCap := rfl
@[simp] theorem State.completeTransfer_cfgQdepth (s : State) (words : List Word) : (s.completeTransfer words).cfgQdepth = s.cfgQdepth := rfl
@[simp] theorem State.completeTransfer_cfgMode (s : State) (words : List Word) : (s.completeTransfer words).cfgMode = s.cfgMode := rfl
@[simp] theorem State.completeTransfer_cfgFreq (s : State) (words : List Word) : (s.completeTransfer words).cfgFreq = s.cfgFreq := rfl
@[simp] theorem State.completeTransfer_cfgSelpin (s : State) (words : List Word) : (s.completeTransfer words).cfgSelpin = s.cfgSelpin := rfl
@[simp] theorem State.completeTransfer_cfgBindAddr (s : State) (words : List Word) : (s.completeTransfer words).cfgBindAddr = s.cfgBindAddr := rfl
@[simp] theorem State.completeTransfer_cfgBindPort (s : State) (words : List Word) : (s.completeTransfer words).cfgBindPort = s.cfgBindPort := rfl
@[simp] theorem State.completeTransfer_cmd (s : State) (words : List Word) : (s.completeTransfer words).cmd = s.cmd := rfl
@[simp] theorem State.completeTransfer_send (s : State) (words : List Word) : (s.completeTransfer words).send = s.send := rfl
@[simp] theorem State.completeTransfer_recv (s : State) (words : List Word) : (s.completeTransfer words).recv = s.recv.writeBytes 0 (inboundFrame words) := rfl
@[simp] theorem State.completeTransfer_latched (s : State) (words : List Word) : (s.completeTransfer words).latched = s.latched := rfl
@[simp] theorem State.completeTransfer_xfer (s : State) (words : List Word) : (s.completeTransfer words).xfer = none := rfl
@[simp] theorem State.completeTransfer_held (s : State) (words : List Word) : (s.completeTransfer words).held = s.held := rfl
@[simp] theorem State.completeTransfer_env (s : State) (words : List Word) : (s.completeTransfer words).env = s.env := rfl
@[simp] theorem State.completeTransfer_draws (s : State) (words : List Word) : (s.completeTransfer words).draws = s.draws := rfl

/-! `State.timeoutTransfer`. -/

@[simp] theorem State.timeoutTransfer_build (s : State) : (s.timeoutTransfer).build = s.build := rfl
@[simp] theorem State.timeoutTransfer_err (s : State) : (s.timeoutTransfer).err = .transferTimeout := rfl
@[simp] theorem State.timeoutTransfer_busy (s : State) : (s.timeoutTransfer).busy = false := rfl
@[simp] theorem State.timeoutTransfer_bridge (s : State) : (s.timeoutTransfer).bridge = s.bridge := rfl
@[simp] theorem State.timeoutTransfer_sel (s : State) : (s.timeoutTransfer).sel = s.deselect := rfl
@[simp] theorem State.timeoutTransfer_staged (s : State) : (s.timeoutTransfer).staged = s.staged := rfl
@[simp] theorem State.timeoutTransfer_offset (s : State) : (s.timeoutTransfer).offset = s.offset := rfl
@[simp] theorem State.timeoutTransfer_len (s : State) : (s.timeoutTransfer).len = s.len := rfl
@[simp] theorem State.timeoutTransfer_value (s : State) : (s.timeoutTransfer).value = s.value := rfl
@[simp] theorem State.timeoutTransfer_result (s : State) : (s.timeoutTransfer).result = s.result := rfl
@[simp] theorem State.timeoutTransfer_opcode (s : State) : (s.timeoutTransfer).opcode = s.opcode := rfl
@[simp] theorem State.timeoutTransfer_encLen (s : State) : (s.timeoutTransfer).encLen = s.encLen := rfl
@[simp] theorem State.timeoutTransfer_field0 (s : State) : (s.timeoutTransfer).field0 = s.field0 := rfl
@[simp] theorem State.timeoutTransfer_field1 (s : State) : (s.timeoutTransfer).field1 = s.field1 := rfl
@[simp] theorem State.timeoutTransfer_field2 (s : State) : (s.timeoutTransfer).field2 = s.field2 := rfl
@[simp] theorem State.timeoutTransfer_field3 (s : State) : (s.timeoutTransfer).field3 = s.field3 := rfl
@[simp] theorem State.timeoutTransfer_field4 (s : State) : (s.timeoutTransfer).field4 = s.field4 := rfl
@[simp] theorem State.timeoutTransfer_field5 (s : State) : (s.timeoutTransfer).field5 = s.field5 := rfl
@[simp] theorem State.timeoutTransfer_timeout (s : State) : (s.timeoutTransfer).timeout = s.timeout := rfl
@[simp] theorem State.timeoutTransfer_ingressLen (s : State) : (s.timeoutTransfer).ingressLen = s.ingressLen := rfl
@[simp] theorem State.timeoutTransfer_cfgCap (s : State) : (s.timeoutTransfer).cfgCap = s.cfgCap := rfl
@[simp] theorem State.timeoutTransfer_cfgQdepth (s : State) : (s.timeoutTransfer).cfgQdepth = s.cfgQdepth := rfl
@[simp] theorem State.timeoutTransfer_cfgMode (s : State) : (s.timeoutTransfer).cfgMode = s.cfgMode := rfl
@[simp] theorem State.timeoutTransfer_cfgFreq (s : State) : (s.timeoutTransfer).cfgFreq = s.cfgFreq := rfl
@[simp] theorem State.timeoutTransfer_cfgSelpin (s : State) : (s.timeoutTransfer).cfgSelpin = s.cfgSelpin := rfl
@[simp] theorem State.timeoutTransfer_cfgBindAddr (s : State) : (s.timeoutTransfer).cfgBindAddr = s.cfgBindAddr := rfl
@[simp] theorem State.timeoutTransfer_cfgBindPort (s : State) : (s.timeoutTransfer).cfgBindPort = s.cfgBindPort := rfl
@[simp] theorem State.timeoutTransfer_cmd (s : State) : (s.timeoutTransfer).cmd = s.cmd := rfl
@[simp] theorem State.timeoutTransfer_send (s : State) : (s.timeoutTransfer).send = s.send := rfl
@[simp] theorem State.timeoutTransfer_recv (s : State) : (s.timeoutTransfer).recv = s.recv.writeBytes 0 (freeBytes (Config.timeoutRecvByte s.draws) s.capacity) := rfl
@[simp] theorem State.timeoutTransfer_latched (s : State) : (s.timeoutTransfer).latched = s.latched := rfl
@[simp] theorem State.timeoutTransfer_xfer (s : State) : (s.timeoutTransfer).xfer = none := rfl
@[simp] theorem State.timeoutTransfer_held (s : State) : (s.timeoutTransfer).held = s.held := rfl
@[simp] theorem State.timeoutTransfer_env (s : State) : (s.timeoutTransfer).env = s.env := rfl
@[simp] theorem State.timeoutTransfer_draws (s : State) : (s.timeoutTransfer).draws = s.draws + 1 := rfl

/-! `State.atLine`. -/

@[simp] theorem State.atLine_build (s : State) (n : Nat) : (s.atLine n).build = s.build := rfl
@[simp] theorem State.atLine_err (s : State) (n : Nat) : (s.atLine n).err = s.err := rfl
@[simp] theorem State.atLine_busy (s : State) (n : Nat) : (s.atLine n).busy = s.busy := rfl
@[simp] theorem State.atLine_bridge (s : State) (n : Nat) : (s.atLine n).bridge = s.bridge := rfl
@[simp] theorem State.atLine_sel (s : State) (n : Nat) : (s.atLine n).sel = s.sel := rfl
@[simp] theorem State.atLine_staged (s : State) (n : Nat) : (s.atLine n).staged = s.staged := rfl
@[simp] theorem State.atLine_offset (s : State) (n : Nat) : (s.atLine n).offset = s.offset := rfl
@[simp] theorem State.atLine_len (s : State) (n : Nat) : (s.atLine n).len = s.len := rfl
@[simp] theorem State.atLine_value (s : State) (n : Nat) : (s.atLine n).value = s.value := rfl
@[simp] theorem State.atLine_result (s : State) (n : Nat) : (s.atLine n).result = s.result := rfl
@[simp] theorem State.atLine_opcode (s : State) (n : Nat) : (s.atLine n).opcode = s.opcode := rfl
@[simp] theorem State.atLine_encLen (s : State) (n : Nat) : (s.atLine n).encLen = s.encLen := rfl
@[simp] theorem State.atLine_field0 (s : State) (n : Nat) : (s.atLine n).field0 = s.field0 := rfl
@[simp] theorem State.atLine_field1 (s : State) (n : Nat) : (s.atLine n).field1 = s.field1 := rfl
@[simp] theorem State.atLine_field2 (s : State) (n : Nat) : (s.atLine n).field2 = s.field2 := rfl
@[simp] theorem State.atLine_field3 (s : State) (n : Nat) : (s.atLine n).field3 = s.field3 := rfl
@[simp] theorem State.atLine_field4 (s : State) (n : Nat) : (s.atLine n).field4 = s.field4 := rfl
@[simp] theorem State.atLine_field5 (s : State) (n : Nat) : (s.atLine n).field5 = s.field5 := rfl
@[simp] theorem State.atLine_timeout (s : State) (n : Nat) : (s.atLine n).timeout = s.timeout := rfl
@[simp] theorem State.atLine_ingressLen (s : State) (n : Nat) : (s.atLine n).ingressLen = s.ingressLen := rfl
@[simp] theorem State.atLine_cfgCap (s : State) (n : Nat) : (s.atLine n).cfgCap = s.cfgCap := rfl
@[simp] theorem State.atLine_cfgQdepth (s : State) (n : Nat) : (s.atLine n).cfgQdepth = s.cfgQdepth := rfl
@[simp] theorem State.atLine_cfgMode (s : State) (n : Nat) : (s.atLine n).cfgMode = s.cfgMode := rfl
@[simp] theorem State.atLine_cfgFreq (s : State) (n : Nat) : (s.atLine n).cfgFreq = s.cfgFreq := rfl
@[simp] theorem State.atLine_cfgSelpin (s : State) (n : Nat) : (s.atLine n).cfgSelpin = s.cfgSelpin := rfl
@[simp] theorem State.atLine_cfgBindAddr (s : State) (n : Nat) : (s.atLine n).cfgBindAddr = s.cfgBindAddr := rfl
@[simp] theorem State.atLine_cfgBindPort (s : State) (n : Nat) : (s.atLine n).cfgBindPort = s.cfgBindPort := rfl
@[simp] theorem State.atLine_cmd (s : State) (n : Nat) : (s.atLine n).cmd = s.cmd := rfl
@[simp] theorem State.atLine_send (s : State) (n : Nat) : (s.atLine n).send = s.send := rfl
@[simp] theorem State.atLine_recv (s : State) (n : Nat) : (s.atLine n).recv = s.recv := rfl
@[simp] theorem State.atLine_latched (s : State) (n : Nat) : (s.atLine n).latched = s.latched := rfl
@[simp] theorem State.atLine_xfer (s : State) (n : Nat) : (s.atLine n).xfer = s.xfer := rfl
@[simp] theorem State.atLine_held (s : State) (n : Nat) : (s.atLine n).held = s.held := rfl
@[simp] theorem State.atLine_env (s : State) (n : Nat) : (s.atLine n).env = { s.env with line := n } := rfl
@[simp] theorem State.atLine_draws (s : State) (n : Nat) : (s.atLine n).draws = s.draws := rfl

/-! `State.seen`. -/

@[simp] theorem State.seen_build (s : State) (offset : BitVec 8) : (s.seen offset).build = s.build := rfl
@[simp] theorem State.seen_err (s : State) (offset : BitVec 8) : (s.seen offset).err = s.err := rfl
@[simp] theorem State.seen_busy (s : State) (offset : BitVec 8) : (s.seen offset).busy = s.busy := rfl
@[simp] theorem State.seen_bridge (s : State) (offset : BitVec 8) : (s.seen offset).bridge = s.bridge := rfl
@[simp] theorem State.seen_sel (s : State) (offset : BitVec 8) : (s.seen offset).sel = s.sel := rfl
@[simp] theorem State.seen_staged (s : State) (offset : BitVec 8) : (s.seen offset).staged = s.staged := rfl
@[simp] theorem State.seen_offset (s : State) (offset : BitVec 8) : (s.seen offset).offset = s.offset := rfl
@[simp] theorem State.seen_len (s : State) (offset : BitVec 8) : (s.seen offset).len = s.len := rfl
@[simp] theorem State.seen_value (s : State) (offset : BitVec 8) : (s.seen offset).value = s.value := rfl
@[simp] theorem State.seen_result (s : State) (offset : BitVec 8) : (s.seen offset).result = s.result := rfl
@[simp] theorem State.seen_opcode (s : State) (offset : BitVec 8) : (s.seen offset).opcode = s.opcode := rfl
@[simp] theorem State.seen_encLen (s : State) (offset : BitVec 8) : (s.seen offset).encLen = s.encLen := rfl
@[simp] theorem State.seen_field0 (s : State) (offset : BitVec 8) : (s.seen offset).field0 = s.field0 := rfl
@[simp] theorem State.seen_field1 (s : State) (offset : BitVec 8) : (s.seen offset).field1 = s.field1 := rfl
@[simp] theorem State.seen_field2 (s : State) (offset : BitVec 8) : (s.seen offset).field2 = s.field2 := rfl
@[simp] theorem State.seen_field3 (s : State) (offset : BitVec 8) : (s.seen offset).field3 = s.field3 := rfl
@[simp] theorem State.seen_field4 (s : State) (offset : BitVec 8) : (s.seen offset).field4 = s.field4 := rfl
@[simp] theorem State.seen_field5 (s : State) (offset : BitVec 8) : (s.seen offset).field5 = s.field5 := rfl
@[simp] theorem State.seen_timeout (s : State) (offset : BitVec 8) : (s.seen offset).timeout = s.timeout := rfl
@[simp] theorem State.seen_ingressLen (s : State) (offset : BitVec 8) : (s.seen offset).ingressLen = s.ingressLen := rfl
@[simp] theorem State.seen_cfgCap (s : State) (offset : BitVec 8) : (s.seen offset).cfgCap = s.cfgCap := rfl
@[simp] theorem State.seen_cfgQdepth (s : State) (offset : BitVec 8) : (s.seen offset).cfgQdepth = s.cfgQdepth := rfl
@[simp] theorem State.seen_cfgMode (s : State) (offset : BitVec 8) : (s.seen offset).cfgMode = s.cfgMode := rfl
@[simp] theorem State.seen_cfgFreq (s : State) (offset : BitVec 8) : (s.seen offset).cfgFreq = s.cfgFreq := rfl
@[simp] theorem State.seen_cfgSelpin (s : State) (offset : BitVec 8) : (s.seen offset).cfgSelpin = s.cfgSelpin := rfl
@[simp] theorem State.seen_cfgBindAddr (s : State) (offset : BitVec 8) : (s.seen offset).cfgBindAddr = s.cfgBindAddr := rfl
@[simp] theorem State.seen_cfgBindPort (s : State) (offset : BitVec 8) : (s.seen offset).cfgBindPort = s.cfgBindPort := rfl
@[simp] theorem State.seen_cmd (s : State) (offset : BitVec 8) : (s.seen offset).cmd = s.cmd := rfl
@[simp] theorem State.seen_send (s : State) (offset : BitVec 8) : (s.seen offset).send = s.send := rfl
@[simp] theorem State.seen_recv (s : State) (offset : BitVec 8) : (s.seen offset).recv = s.recv := rfl
@[simp] theorem State.seen_latched (s : State) (offset : BitVec 8) : (s.seen offset).latched = s.latched := rfl
@[simp] theorem State.seen_xfer (s : State) (offset : BitVec 8) : (s.seen offset).xfer = s.xfer := rfl
@[simp] theorem State.seen_held (s : State) (offset : BitVec 8) : (s.seen offset).held = s.held := rfl
@[simp] theorem State.seen_env (s : State) (offset : BitVec 8) : (s.seen offset).env = { s.env with lastRead := s.hostRead offset } := rfl
@[simp] theorem State.seen_draws (s : State) (offset : BitVec 8) : (s.seen offset).draws = s.draws := rfl

/-! `State.afterTurn`. -/

@[simp] theorem State.afterTurn_build (s : State) : (s.afterTurn).build = s.build := rfl
@[simp] theorem State.afterTurn_err (s : State) : (s.afterTurn).err = s.err := rfl
@[simp] theorem State.afterTurn_busy (s : State) : (s.afterTurn).busy = s.busy := rfl
@[simp] theorem State.afterTurn_bridge (s : State) : (s.afterTurn).bridge = s.bridge := rfl
@[simp] theorem State.afterTurn_sel (s : State) : (s.afterTurn).sel = s.sel := rfl
@[simp] theorem State.afterTurn_staged (s : State) : (s.afterTurn).staged = s.staged := rfl
@[simp] theorem State.afterTurn_offset (s : State) : (s.afterTurn).offset = s.offset := rfl
@[simp] theorem State.afterTurn_len (s : State) : (s.afterTurn).len = s.len := rfl
@[simp] theorem State.afterTurn_value (s : State) : (s.afterTurn).value = s.value := rfl
@[simp] theorem State.afterTurn_result (s : State) : (s.afterTurn).result = s.result := rfl
@[simp] theorem State.afterTurn_opcode (s : State) : (s.afterTurn).opcode = s.opcode := rfl
@[simp] theorem State.afterTurn_encLen (s : State) : (s.afterTurn).encLen = s.encLen := rfl
@[simp] theorem State.afterTurn_field0 (s : State) : (s.afterTurn).field0 = s.field0 := rfl
@[simp] theorem State.afterTurn_field1 (s : State) : (s.afterTurn).field1 = s.field1 := rfl
@[simp] theorem State.afterTurn_field2 (s : State) : (s.afterTurn).field2 = s.field2 := rfl
@[simp] theorem State.afterTurn_field3 (s : State) : (s.afterTurn).field3 = s.field3 := rfl
@[simp] theorem State.afterTurn_field4 (s : State) : (s.afterTurn).field4 = s.field4 := rfl
@[simp] theorem State.afterTurn_field5 (s : State) : (s.afterTurn).field5 = s.field5 := rfl
@[simp] theorem State.afterTurn_timeout (s : State) : (s.afterTurn).timeout = s.timeout := rfl
@[simp] theorem State.afterTurn_ingressLen (s : State) : (s.afterTurn).ingressLen = s.ingressLen := rfl
@[simp] theorem State.afterTurn_cfgCap (s : State) : (s.afterTurn).cfgCap = s.cfgCap := rfl
@[simp] theorem State.afterTurn_cfgQdepth (s : State) : (s.afterTurn).cfgQdepth = s.cfgQdepth := rfl
@[simp] theorem State.afterTurn_cfgMode (s : State) : (s.afterTurn).cfgMode = s.cfgMode := rfl
@[simp] theorem State.afterTurn_cfgFreq (s : State) : (s.afterTurn).cfgFreq = s.cfgFreq := rfl
@[simp] theorem State.afterTurn_cfgSelpin (s : State) : (s.afterTurn).cfgSelpin = s.cfgSelpin := rfl
@[simp] theorem State.afterTurn_cfgBindAddr (s : State) : (s.afterTurn).cfgBindAddr = s.cfgBindAddr := rfl
@[simp] theorem State.afterTurn_cfgBindPort (s : State) : (s.afterTurn).cfgBindPort = s.cfgBindPort := rfl
@[simp] theorem State.afterTurn_cmd (s : State) : (s.afterTurn).cmd = s.cmd := rfl
@[simp] theorem State.afterTurn_send (s : State) : (s.afterTurn).send = s.send := rfl
@[simp] theorem State.afterTurn_recv (s : State) : (s.afterTurn).recv = s.recv := rfl
@[simp] theorem State.afterTurn_latched (s : State) : (s.afterTurn).latched = s.latched := rfl
@[simp] theorem State.afterTurn_xfer (s : State) : (s.afterTurn).xfer = s.xfer := rfl
@[simp] theorem State.afterTurn_held (s : State) : (s.afterTurn).held = s.held := rfl
@[simp] theorem State.afterTurn_env (s : State) : (s.afterTurn).env = { s.env with turns := s.env.turns.tail } := rfl
@[simp] theorem State.afterTurn_draws (s : State) : (s.afterTurn).draws = s.draws := rfl

/-! `State.resetStep`. -/

@[simp] theorem State.resetStep_build (s : State) : s.resetStep.build = s.build := rfl
@[simp] theorem State.resetStep_err (s : State) : s.resetStep.err = .ok := rfl
@[simp] theorem State.resetStep_busy (s : State) : s.resetStep.busy = false := rfl
@[simp] theorem State.resetStep_bridge (s : State) : s.resetStep.bridge = .uninitialized := rfl
@[simp] theorem State.resetStep_sel (s : State) : s.resetStep.sel = false := rfl
@[simp] theorem State.resetStep_staged (s : State) : s.resetStep.staged = false := rfl
@[simp] theorem State.resetStep_offset (s : State) : s.resetStep.offset = 0 := rfl
@[simp] theorem State.resetStep_len (s : State) : s.resetStep.len = 0 := rfl
@[simp] theorem State.resetStep_value (s : State) : s.resetStep.value = 0 := rfl
@[simp] theorem State.resetStep_result (s : State) : s.resetStep.result = 0 := rfl
@[simp] theorem State.resetStep_opcode (s : State) : s.resetStep.opcode = 0 := rfl
@[simp] theorem State.resetStep_encLen (s : State) : s.resetStep.encLen = 0 := rfl
@[simp] theorem State.resetStep_field0 (s : State) : s.resetStep.field0 = 0 := rfl
@[simp] theorem State.resetStep_field1 (s : State) : s.resetStep.field1 = 0 := rfl
@[simp] theorem State.resetStep_field2 (s : State) : s.resetStep.field2 = 0 := rfl
@[simp] theorem State.resetStep_field3 (s : State) : s.resetStep.field3 = 0 := rfl
@[simp] theorem State.resetStep_field4 (s : State) : s.resetStep.field4 = 0 := rfl
@[simp] theorem State.resetStep_field5 (s : State) : s.resetStep.field5 = 0 := rfl
@[simp] theorem State.resetStep_timeout (s : State) : s.resetStep.timeout = 0 := rfl
@[simp] theorem State.resetStep_ingressLen (s : State) : s.resetStep.ingressLen = 0 := rfl
@[simp] theorem State.resetStep_cfgCap (s : State) : s.resetStep.cfgCap = BitVec.ofNat 32 s.build.cMax := rfl
@[simp] theorem State.resetStep_cfgQdepth (s : State) : s.resetStep.cfgQdepth = 0 := rfl
@[simp] theorem State.resetStep_cfgMode (s : State) : s.resetStep.cfgMode = 0 := rfl
@[simp] theorem State.resetStep_cfgFreq (s : State) : s.resetStep.cfgFreq = 0 := rfl
@[simp] theorem State.resetStep_cfgSelpin (s : State) : s.resetStep.cfgSelpin = 0 := rfl
@[simp] theorem State.resetStep_cfgBindAddr (s : State) : s.resetStep.cfgBindAddr = 0 := rfl
@[simp] theorem State.resetStep_cfgBindPort (s : State) : s.resetStep.cfgBindPort = 0 := rfl
@[simp] theorem State.resetStep_cmd (s : State) : s.resetStep.cmd = Memory.zero := rfl
@[simp] theorem State.resetStep_send (s : State) : s.resetStep.send = s.send.writeBytes 0 (freeBytes (Config.resetSendByte s.draws) s.build.cMax) := rfl
@[simp] theorem State.resetStep_recv (s : State) : s.resetStep.recv = s.recv.writeBytes 0 (freeBytes (Config.resetRecvByte s.draws) s.build.cMax) := rfl
@[simp] theorem State.resetStep_latched (s : State) : s.resetStep.latched = s.freeLatched := rfl
@[simp] theorem State.resetStep_xfer (s : State) : s.resetStep.xfer = none := rfl
@[simp] theorem State.resetStep_held (s : State) : s.resetStep.held = none := rfl
@[simp] theorem State.resetStep_env (s : State) : s.resetStep.env = s.env := rfl
@[simp] theorem State.resetStep_draws (s : State) : s.resetStep.draws = s.draws + 1 := rfl

/-! `State.setBuffer`: the buffer itself, and the fields that are no buffer. -/

@[simp] theorem State.buffer_setBuffer (s : State) (buf : Buffer) (m : Memory) : (s.setBuffer buf m).buffer buf = m := by cases buf <;> rfl
@[simp] theorem State.setBuffer_build (s : State) (buf : Buffer) (m : Memory) : (s.setBuffer buf m).build = s.build := by cases buf <;> rfl
@[simp] theorem State.setBuffer_err (s : State) (buf : Buffer) (m : Memory) : (s.setBuffer buf m).err = s.err := by cases buf <;> rfl
@[simp] theorem State.setBuffer_busy (s : State) (buf : Buffer) (m : Memory) : (s.setBuffer buf m).busy = s.busy := by cases buf <;> rfl
@[simp] theorem State.setBuffer_bridge (s : State) (buf : Buffer) (m : Memory) : (s.setBuffer buf m).bridge = s.bridge := by cases buf <;> rfl
@[simp] theorem State.setBuffer_sel (s : State) (buf : Buffer) (m : Memory) : (s.setBuffer buf m).sel = s.sel := by cases buf <;> rfl
@[simp] theorem State.setBuffer_staged (s : State) (buf : Buffer) (m : Memory) : (s.setBuffer buf m).staged = s.staged := by cases buf <;> rfl
@[simp] theorem State.setBuffer_offset (s : State) (buf : Buffer) (m : Memory) : (s.setBuffer buf m).offset = s.offset := by cases buf <;> rfl
@[simp] theorem State.setBuffer_len (s : State) (buf : Buffer) (m : Memory) : (s.setBuffer buf m).len = s.len := by cases buf <;> rfl
@[simp] theorem State.setBuffer_value (s : State) (buf : Buffer) (m : Memory) : (s.setBuffer buf m).value = s.value := by cases buf <;> rfl
@[simp] theorem State.setBuffer_result (s : State) (buf : Buffer) (m : Memory) : (s.setBuffer buf m).result = s.result := by cases buf <;> rfl
@[simp] theorem State.setBuffer_opcode (s : State) (buf : Buffer) (m : Memory) : (s.setBuffer buf m).opcode = s.opcode := by cases buf <;> rfl
@[simp] theorem State.setBuffer_encLen (s : State) (buf : Buffer) (m : Memory) : (s.setBuffer buf m).encLen = s.encLen := by cases buf <;> rfl
@[simp] theorem State.setBuffer_field0 (s : State) (buf : Buffer) (m : Memory) : (s.setBuffer buf m).field0 = s.field0 := by cases buf <;> rfl
@[simp] theorem State.setBuffer_field1 (s : State) (buf : Buffer) (m : Memory) : (s.setBuffer buf m).field1 = s.field1 := by cases buf <;> rfl
@[simp] theorem State.setBuffer_field2 (s : State) (buf : Buffer) (m : Memory) : (s.setBuffer buf m).field2 = s.field2 := by cases buf <;> rfl
@[simp] theorem State.setBuffer_field3 (s : State) (buf : Buffer) (m : Memory) : (s.setBuffer buf m).field3 = s.field3 := by cases buf <;> rfl
@[simp] theorem State.setBuffer_field4 (s : State) (buf : Buffer) (m : Memory) : (s.setBuffer buf m).field4 = s.field4 := by cases buf <;> rfl
@[simp] theorem State.setBuffer_field5 (s : State) (buf : Buffer) (m : Memory) : (s.setBuffer buf m).field5 = s.field5 := by cases buf <;> rfl
@[simp] theorem State.setBuffer_timeout (s : State) (buf : Buffer) (m : Memory) : (s.setBuffer buf m).timeout = s.timeout := by cases buf <;> rfl
@[simp] theorem State.setBuffer_ingressLen (s : State) (buf : Buffer) (m : Memory) : (s.setBuffer buf m).ingressLen = s.ingressLen := by cases buf <;> rfl
@[simp] theorem State.setBuffer_cfgCap (s : State) (buf : Buffer) (m : Memory) : (s.setBuffer buf m).cfgCap = s.cfgCap := by cases buf <;> rfl
@[simp] theorem State.setBuffer_cfgQdepth (s : State) (buf : Buffer) (m : Memory) : (s.setBuffer buf m).cfgQdepth = s.cfgQdepth := by cases buf <;> rfl
@[simp] theorem State.setBuffer_cfgMode (s : State) (buf : Buffer) (m : Memory) : (s.setBuffer buf m).cfgMode = s.cfgMode := by cases buf <;> rfl
@[simp] theorem State.setBuffer_cfgFreq (s : State) (buf : Buffer) (m : Memory) : (s.setBuffer buf m).cfgFreq = s.cfgFreq := by cases buf <;> rfl
@[simp] theorem State.setBuffer_cfgSelpin (s : State) (buf : Buffer) (m : Memory) : (s.setBuffer buf m).cfgSelpin = s.cfgSelpin := by cases buf <;> rfl
@[simp] theorem State.setBuffer_cfgBindAddr (s : State) (buf : Buffer) (m : Memory) : (s.setBuffer buf m).cfgBindAddr = s.cfgBindAddr := by cases buf <;> rfl
@[simp] theorem State.setBuffer_cfgBindPort (s : State) (buf : Buffer) (m : Memory) : (s.setBuffer buf m).cfgBindPort = s.cfgBindPort := by cases buf <;> rfl
@[simp] theorem State.setBuffer_latched (s : State) (buf : Buffer) (m : Memory) : (s.setBuffer buf m).latched = s.latched := by cases buf <;> rfl
@[simp] theorem State.setBuffer_xfer (s : State) (buf : Buffer) (m : Memory) : (s.setBuffer buf m).xfer = s.xfer := by cases buf <;> rfl
@[simp] theorem State.setBuffer_held (s : State) (buf : Buffer) (m : Memory) : (s.setBuffer buf m).held = s.held := by cases buf <;> rfl
@[simp] theorem State.setBuffer_env (s : State) (buf : Buffer) (m : Memory) : (s.setBuffer buf m).env = s.env := by cases buf <;> rfl
@[simp] theorem State.setBuffer_draws (s : State) (buf : Buffer) (m : Memory) : (s.setBuffer buf m).draws = s.draws := by cases buf <;> rfl

/-! `State.forwardConfig`: only the environment changes. -/

@[simp] theorem State.forwardConfig_build (s : State) : s.forwardConfig.build = s.build := by unfold State.forwardConfig; split <;> rfl
@[simp] theorem State.forwardConfig_err (s : State) : s.forwardConfig.err = s.err := by unfold State.forwardConfig; split <;> rfl
@[simp] theorem State.forwardConfig_busy (s : State) : s.forwardConfig.busy = s.busy := by unfold State.forwardConfig; split <;> rfl
@[simp] theorem State.forwardConfig_bridge (s : State) : s.forwardConfig.bridge = s.bridge := by unfold State.forwardConfig; split <;> rfl
@[simp] theorem State.forwardConfig_sel (s : State) : s.forwardConfig.sel = s.sel := by unfold State.forwardConfig; split <;> rfl
@[simp] theorem State.forwardConfig_staged (s : State) : s.forwardConfig.staged = s.staged := by unfold State.forwardConfig; split <;> rfl
@[simp] theorem State.forwardConfig_offset (s : State) : s.forwardConfig.offset = s.offset := by unfold State.forwardConfig; split <;> rfl
@[simp] theorem State.forwardConfig_len (s : State) : s.forwardConfig.len = s.len := by unfold State.forwardConfig; split <;> rfl
@[simp] theorem State.forwardConfig_value (s : State) : s.forwardConfig.value = s.value := by unfold State.forwardConfig; split <;> rfl
@[simp] theorem State.forwardConfig_result (s : State) : s.forwardConfig.result = s.result := by unfold State.forwardConfig; split <;> rfl
@[simp] theorem State.forwardConfig_opcode (s : State) : s.forwardConfig.opcode = s.opcode := by unfold State.forwardConfig; split <;> rfl
@[simp] theorem State.forwardConfig_encLen (s : State) : s.forwardConfig.encLen = s.encLen := by unfold State.forwardConfig; split <;> rfl
@[simp] theorem State.forwardConfig_field0 (s : State) : s.forwardConfig.field0 = s.field0 := by unfold State.forwardConfig; split <;> rfl
@[simp] theorem State.forwardConfig_field1 (s : State) : s.forwardConfig.field1 = s.field1 := by unfold State.forwardConfig; split <;> rfl
@[simp] theorem State.forwardConfig_field2 (s : State) : s.forwardConfig.field2 = s.field2 := by unfold State.forwardConfig; split <;> rfl
@[simp] theorem State.forwardConfig_field3 (s : State) : s.forwardConfig.field3 = s.field3 := by unfold State.forwardConfig; split <;> rfl
@[simp] theorem State.forwardConfig_field4 (s : State) : s.forwardConfig.field4 = s.field4 := by unfold State.forwardConfig; split <;> rfl
@[simp] theorem State.forwardConfig_field5 (s : State) : s.forwardConfig.field5 = s.field5 := by unfold State.forwardConfig; split <;> rfl
@[simp] theorem State.forwardConfig_timeout (s : State) : s.forwardConfig.timeout = s.timeout := by unfold State.forwardConfig; split <;> rfl
@[simp] theorem State.forwardConfig_ingressLen (s : State) : s.forwardConfig.ingressLen = s.ingressLen := by unfold State.forwardConfig; split <;> rfl
@[simp] theorem State.forwardConfig_cfgCap (s : State) : s.forwardConfig.cfgCap = s.cfgCap := by unfold State.forwardConfig; split <;> rfl
@[simp] theorem State.forwardConfig_cfgQdepth (s : State) : s.forwardConfig.cfgQdepth = s.cfgQdepth := by unfold State.forwardConfig; split <;> rfl
@[simp] theorem State.forwardConfig_cfgMode (s : State) : s.forwardConfig.cfgMode = s.cfgMode := by unfold State.forwardConfig; split <;> rfl
@[simp] theorem State.forwardConfig_cfgFreq (s : State) : s.forwardConfig.cfgFreq = s.cfgFreq := by unfold State.forwardConfig; split <;> rfl
@[simp] theorem State.forwardConfig_cfgSelpin (s : State) : s.forwardConfig.cfgSelpin = s.cfgSelpin := by unfold State.forwardConfig; split <;> rfl
@[simp] theorem State.forwardConfig_cfgBindAddr (s : State) : s.forwardConfig.cfgBindAddr = s.cfgBindAddr := by unfold State.forwardConfig; split <;> rfl
@[simp] theorem State.forwardConfig_cfgBindPort (s : State) : s.forwardConfig.cfgBindPort = s.cfgBindPort := by unfold State.forwardConfig; split <;> rfl
@[simp] theorem State.forwardConfig_cmd (s : State) : s.forwardConfig.cmd = s.cmd := by unfold State.forwardConfig; split <;> rfl
@[simp] theorem State.forwardConfig_send (s : State) : s.forwardConfig.send = s.send := by unfold State.forwardConfig; split <;> rfl
@[simp] theorem State.forwardConfig_recv (s : State) : s.forwardConfig.recv = s.recv := by unfold State.forwardConfig; split <;> rfl
@[simp] theorem State.forwardConfig_latched (s : State) : s.forwardConfig.latched = s.latched := by unfold State.forwardConfig; split <;> rfl
@[simp] theorem State.forwardConfig_xfer (s : State) : s.forwardConfig.xfer = s.xfer := by unfold State.forwardConfig; split <;> rfl
@[simp] theorem State.forwardConfig_held (s : State) : s.forwardConfig.held = s.held := by unfold State.forwardConfig; split <;> rfl
@[simp] theorem State.forwardConfig_draws (s : State) : s.forwardConfig.draws = s.draws := by unfold State.forwardConfig; split <;> rfl

/-! `State.consumeIngress`: only the environment changes. -/

@[simp] theorem State.consumeIngress_build (s : State) : s.consumeIngress.build = s.build := by unfold State.consumeIngress; split <;> rfl
@[simp] theorem State.consumeIngress_err (s : State) : s.consumeIngress.err = s.err := by unfold State.consumeIngress; split <;> rfl
@[simp] theorem State.consumeIngress_busy (s : State) : s.consumeIngress.busy = s.busy := by unfold State.consumeIngress; split <;> rfl
@[simp] theorem State.consumeIngress_bridge (s : State) : s.consumeIngress.bridge = s.bridge := by unfold State.consumeIngress; split <;> rfl
@[simp] theorem State.consumeIngress_sel (s : State) : s.consumeIngress.sel = s.sel := by unfold State.consumeIngress; split <;> rfl
@[simp] theorem State.consumeIngress_staged (s : State) : s.consumeIngress.staged = s.staged := by unfold State.consumeIngress; split <;> rfl
@[simp] theorem State.consumeIngress_offset (s : State) : s.consumeIngress.offset = s.offset := by unfold State.consumeIngress; split <;> rfl
@[simp] theorem State.consumeIngress_len (s : State) : s.consumeIngress.len = s.len := by unfold State.consumeIngress; split <;> rfl
@[simp] theorem State.consumeIngress_value (s : State) : s.consumeIngress.value = s.value := by unfold State.consumeIngress; split <;> rfl
@[simp] theorem State.consumeIngress_result (s : State) : s.consumeIngress.result = s.result := by unfold State.consumeIngress; split <;> rfl
@[simp] theorem State.consumeIngress_opcode (s : State) : s.consumeIngress.opcode = s.opcode := by unfold State.consumeIngress; split <;> rfl
@[simp] theorem State.consumeIngress_encLen (s : State) : s.consumeIngress.encLen = s.encLen := by unfold State.consumeIngress; split <;> rfl
@[simp] theorem State.consumeIngress_field0 (s : State) : s.consumeIngress.field0 = s.field0 := by unfold State.consumeIngress; split <;> rfl
@[simp] theorem State.consumeIngress_field1 (s : State) : s.consumeIngress.field1 = s.field1 := by unfold State.consumeIngress; split <;> rfl
@[simp] theorem State.consumeIngress_field2 (s : State) : s.consumeIngress.field2 = s.field2 := by unfold State.consumeIngress; split <;> rfl
@[simp] theorem State.consumeIngress_field3 (s : State) : s.consumeIngress.field3 = s.field3 := by unfold State.consumeIngress; split <;> rfl
@[simp] theorem State.consumeIngress_field4 (s : State) : s.consumeIngress.field4 = s.field4 := by unfold State.consumeIngress; split <;> rfl
@[simp] theorem State.consumeIngress_field5 (s : State) : s.consumeIngress.field5 = s.field5 := by unfold State.consumeIngress; split <;> rfl
@[simp] theorem State.consumeIngress_timeout (s : State) : s.consumeIngress.timeout = s.timeout := by unfold State.consumeIngress; split <;> rfl
@[simp] theorem State.consumeIngress_ingressLen (s : State) : s.consumeIngress.ingressLen = s.ingressLen := by unfold State.consumeIngress; split <;> rfl
@[simp] theorem State.consumeIngress_cfgCap (s : State) : s.consumeIngress.cfgCap = s.cfgCap := by unfold State.consumeIngress; split <;> rfl
@[simp] theorem State.consumeIngress_cfgQdepth (s : State) : s.consumeIngress.cfgQdepth = s.cfgQdepth := by unfold State.consumeIngress; split <;> rfl
@[simp] theorem State.consumeIngress_cfgMode (s : State) : s.consumeIngress.cfgMode = s.cfgMode := by unfold State.consumeIngress; split <;> rfl
@[simp] theorem State.consumeIngress_cfgFreq (s : State) : s.consumeIngress.cfgFreq = s.cfgFreq := by unfold State.consumeIngress; split <;> rfl
@[simp] theorem State.consumeIngress_cfgSelpin (s : State) : s.consumeIngress.cfgSelpin = s.cfgSelpin := by unfold State.consumeIngress; split <;> rfl
@[simp] theorem State.consumeIngress_cfgBindAddr (s : State) : s.consumeIngress.cfgBindAddr = s.cfgBindAddr := by unfold State.consumeIngress; split <;> rfl
@[simp] theorem State.consumeIngress_cfgBindPort (s : State) : s.consumeIngress.cfgBindPort = s.cfgBindPort := by unfold State.consumeIngress; split <;> rfl
@[simp] theorem State.consumeIngress_cmd (s : State) : s.consumeIngress.cmd = s.cmd := by unfold State.consumeIngress; split <;> rfl
@[simp] theorem State.consumeIngress_send (s : State) : s.consumeIngress.send = s.send := by unfold State.consumeIngress; split <;> rfl
@[simp] theorem State.consumeIngress_recv (s : State) : s.consumeIngress.recv = s.recv := by unfold State.consumeIngress; split <;> rfl
@[simp] theorem State.consumeIngress_latched (s : State) : s.consumeIngress.latched = s.latched := by unfold State.consumeIngress; split <;> rfl
@[simp] theorem State.consumeIngress_xfer (s : State) : s.consumeIngress.xfer = s.xfer := by unfold State.consumeIngress; split <;> rfl
@[simp] theorem State.consumeIngress_held (s : State) : s.consumeIngress.held = s.held := by unfold State.consumeIngress; split <;> rfl
@[simp] theorem State.consumeIngress_draws (s : State) : s.consumeIngress.draws = s.draws := by unfold State.consumeIngress; split <;> rfl

end Sys2Proof.Machine
end

