-- ==== Sys2Proof/Laws/Step.lean ====
section
/-! SUPPORT. What a step can be, said once: which agent's turn it was, and what that agent did. -/

namespace Sys2Proof.Machine

/-- A host turn that issues nothing: the host moved in its program, or an OPW write was held while BUSY = 1, or it wrote a register. -/
theorem State.hostMove_quiet {s t : State} (h : s.hostMove = .quiet t) :
    (∃ env, t = { s with env := env }) ∨ (s.busy = true ∧ ∃ v env, t = { s with held := some v, env := env }) ∨
      ∃ off v env, t = ({ s with env := env } : State).hostWrite off v := by
  unfold State.hostMove at h
  split at h
  · split at h
    · cases h; exact .inl ⟨s.env, rfl⟩
    · cases h
  · split at h
    · rename_i l _
      cases l with
      | wr off v =>
        simp only [State.hostLineMove, State.hostWriteMove] at h
        split at h
        · split at h
          · rename_i hb; cases h; exact .inr (.inl ⟨hb, v, _, rfl⟩)
          · cases h
        · cases h; exact .inr (.inr ⟨off, v, _, rfl⟩)
      | rd off => cases h; exact .inl ⟨_, rfl⟩
      | beq off hi lo value target => cases h; exact .inl ⟨_, rfl⟩
      | bne off hi lo value target => cases h; exact .inl ⟨_, rfl⟩
      | jmp target => cases h; exact .inl ⟨_, rfl⟩
      | halt => cases h; exact .inl ⟨s.env, rfl⟩
    · cases h; exact .inl ⟨s.env, rfl⟩

/-- A host turn that issues: BUSY = 0, and only the host has moved on. -/
theorem State.hostMove_issue {s t : State} {v : Word} (h : s.hostMove = .issue v t) :
    s.busy = false ∧ ∃ env, t = { s with held := none, env := env } := by
  unfold State.hostMove at h
  split at h
  · split at h
    · cases h
    · rename_i hb; cases h; exact ⟨by simpa using hb, s.env, rfl⟩
  · rename_i hheld
    split at h
    · rename_i l _
      cases l with
      | wr off v' =>
        simp only [State.hostLineMove, State.hostWriteMove] at h
        split at h
        · split at h
          · cases h
          · rename_i hb
            cases h
            exact ⟨by simpa [State.atLine] using hb, { s.env with line := s.env.line + 1 }, by simp [State.atLine, hheld]⟩
        · cases h
      | rd off => cases h
      | beq off hi lo value target => cases h
      | bne off hi lo value target => cases h
      | jmp target => cases h
      | halt => cases h
    · cases h

/-- Only an operation of the operation word can issue (R87). -/
theorem decodeOpw_not_wire {v : Word} {i : Instr} (h : decodeOpw v = .ok i) : i.isWire = false := by
  unfold decodeOpw at h
  simp only at h
  split at h
  · cases h
  · split at h
    all_goals first
      | (split at h <;> first | (cases h; done) | (injection h with h; subst h; rfl))
      | (unfold decodePlain at h; split at h <;> first | (cases h; done) | (injection h with h; subst h; rfl))
      | (split at h
         · split at h <;> first | (cases h; done) | (injection h with h; subst h; rfl)
         · cases h)
      | cases h

/-- Every step is one of: waiting; the host moving, or holding a write, or writing a register; the bus agent's turn; reset; an illegal
word; an instruction. -/
theorem step_cases {s t : State} (h : step s = .next t) :
    (∃ env, t = { s with env := env }) ∨
    (s.busy = true ∧ ∃ v env, t = { s with held := some v, env := env }) ∨
    (∃ off v env, t = ({ s with env := env } : State).hostWrite off v) ∨
    (∃ o ts, s.env.turns = .bus o :: ts ∧ t = s.afterTurn.busStep o) ∨
    ((∃ ts, s.env.turns = .reset :: ts) ∧ t = s.afterTurn.resetStep) ∨
    (s.busy = false ∧ ∃ env, t = ({ s with held := none, env := env } : State).raise .illegalOp) ∨
    ∃ i env, s.busy = false ∧ i.isWire = false ∧ s.issuing = some i ∧ exec i { s with held := none, env := env } = .next t := by
  unfold step at h
  cases hm : s.nextMove with
  | quiet u =>
    rw [hm] at h
    cases h
    unfold State.nextMove at hm
    split at hm
    · cases hm; exact .inl ⟨s.env, rfl⟩
    · rename_i ts hts
      rcases State.hostMove_quiet hm with ⟨env, rfl⟩ | ⟨hb, v, env, rfl⟩ | ⟨off, v, env, rfl⟩
      · exact .inl ⟨env, rfl⟩
      · exact .inr (.inl ⟨hb, v, env, rfl⟩)
      · exact .inr (.inr (.inl ⟨off, v, env, rfl⟩))
    · rename_i o ts hts; cases hm; exact .inr (.inr (.inr (.inl ⟨o, ts, hts, rfl⟩)))
    · rename_i ts hts; cases hm; exact .inr (.inr (.inr (.inr (.inl ⟨⟨ts, hts⟩, rfl⟩))))
  | issue v u =>
    rw [hm] at h
    have hi : s.issuing = (decodeOpw v).instr? := by unfold State.issuing; rw [hm]
    have hu : s.busy = false ∧ ∃ env, u = { s with held := none, env := env } := by
      unfold State.nextMove at hm
      split at hm
      · cases hm
      · obtain ⟨hb, env, rfl⟩ := State.hostMove_issue hm
        exact ⟨hb, env, rfl⟩
      · cases hm
      · cases hm
    obtain ⟨hb, env, rfl⟩ := hu
    simp only at h
    cases hd : decodeOpw v with
    | ok i =>
      rw [hd] at h hi
      exact .inr (.inr (.inr (.inr (.inr (.inr ⟨i, env, hb, decodeOpw_not_wire hd, hi, h⟩)))))
    | illegal why =>
      rw [hd] at h
      cases h
      exact .inr (.inr (.inr (.inr (.inr (.inl ⟨hb, env, rfl⟩)))))

end Sys2Proof.Machine
end

