-- ==== Sys2Proof/Machine/HostProgram.lean ====
section
/-! DEFINITION. Host programs as the spec writes them (spec/30_encoding.md R96 to R99): the line of an operation, and the expansions
of the pseudo-instructions. -/

namespace Sys2Proof.Machine

/-- An operation line (R97): a host write of the operation word to OPW. A wire command is no operation line. -/
def opLine (i : Instr) : List HostLine :=
  match encode i with
  | .opWord w => [.wr 0x00 w]
  | .image _ => []

/-- `WR <REG>, <value>` (R97). -/
def wrLine (r : Reg) (v : Word) : HostLine := .wr (regOffset r) v

/-- `RD <REG>` (R97). -/
def rdLine (r : Reg) : HostLine := .rd (regOffset r)

/-- The pseudo-instructions of R98. -/
inductive Pseudo where
  | rbits (b : Buffer) (o l : Word) (w : BitVec 6)
  | wbits (b : Buffer) (o l : Word) (w : BitVec 6) (v : Word)
  | enc (op : Word) (fields : List Word)
  | dec (b : Buffer) (l : Word)
  | wait
  | xferMaster (t : Word)
  | xferSlave
  | check (e : Word)
  deriving DecidableEq, Repr

/-- FIELD0 to FIELD5 in order. -/
def fieldRegs : List Reg := [.field0, .field1, .field2, .field3, .field4, .field5]

/-- `WAIT` at line `at_`: read STATUS again while bit [4] (BUSY) is 1 (R98). -/
def waitLine (at_ : Nat) : HostLine := .beq (regOffset .status) 4 4 1 at_

/-- The expansion of a pseudo-instruction that stands at line `at_` (R98). What CHECK requires of the read value is the host's own
business: the expansion is the read (log entry 11). -/
def Pseudo.expand (at_ : Nat) : Pseudo → List HostLine
  | .rbits b o l w => [wrLine .offset o, wrLine .len l] ++ opLine (.readBits b w) ++ [rdLine .result]
  | .wbits b o l w v => [wrLine .offset o, wrLine .len l, wrLine .value v] ++ opLine (.writeBits b w)
  | .enc op fields => wrLine .opcode op :: (List.zipWith wrLine fieldRegs fields ++ opLine .encodeCommand)
  | .dec b l => wrLine .len l :: opLine (.decodeCommand b)
  | .wait => [waitLine at_]
  | .xferMaster t => wrLine .timeout t :: (opLine .transferFrame ++ [waitLine (at_ + 2)])
  | .xferSlave => opLine .transferFrame ++ [waitLine (at_ + 1)]
  | .check _ => [rdLine .status]

/-- The boot sequence a host owes a Master (R263): the configuration, INIT, BEGIN, each followed by a read of STATUS, and TIMEOUT. -/
def bootMaster (cap qdepth mode freq selpin bindAddr bindPort timeout : Word) : List HostLine :=
  [wrLine .cfgCap cap, wrLine .cfgQdepth qdepth, wrLine .cfgMode mode, wrLine .cfgFreq freq, wrLine .cfgSelpin selpin,
    wrLine .cfgBindAddr bindAddr, wrLine .cfgBindPort bindPort] ++
  opLine .initBridge ++ [rdLine .status] ++ opLine .beginBus ++ [rdLine .status, wrLine .timeout timeout]

/-- The boot sequence a host owes a Slave (R263). -/
def bootSlave (cap qdepth mode : Word) : List HostLine :=
  [wrLine .cfgCap cap, wrLine .cfgQdepth qdepth, wrLine .cfgMode mode] ++
  opLine .initBridge ++ [rdLine .status] ++ opLine .beginBus ++ [rdLine .status]

/-- One host cycle of a Master, from line `at_` on (R204): STAGE; without a staged frame the cycle is over; else the transfer, and on OK
the decoding of RECV. The cycle ends at line `at_ + 9`; dispatching the command is the host's own. -/
def masterCycle (at_ : Nat) (timeout c : Word) : List HostLine :=
  opLine .stageFrame ++ [.beq (regOffset .status) 8 8 0 (at_ + 9), wrLine .timeout timeout] ++ opLine .transferFrame ++
  [waitLine (at_ + 4), .bne (regOffset .status) 3 0 0 (at_ + 9), wrLine .len c] ++ opLine (.decodeCommand .recv) ++ [rdLine .status]

/-- One host cycle of a Slave, from line `at_` on (R204): the transfer, then the decoding of RECV. It ends at line `at_ + 5`. -/
def slaveCycle (at_ : Nat) (c : Word) : List HostLine :=
  opLine .transferFrame ++ [waitLine (at_ + 1), wrLine .len c] ++ opLine (.decodeCommand .recv) ++ [rdLine .status]

end Sys2Proof.Machine
end

