-- ==== Sys2Proof/Tests/Slice0.lean ====
section
/-! SUPPORT. Small tests, each with its expected result from spec/ (the worked examples of the rules and spec/95_test_vectors.md), and
for each statement with hypotheses a concrete state that meets them. -/

namespace Sys2Proof.Tests

open Sys2Proof Sys2Proof.Machine

/-! WellFormed: the one check refuses its ill-formed term (R89). -/

theorem test_wellFormed_refuses_writeBits_recv : (Instr.writeBits .recv 8).wellFormed = false := rfl
theorem test_wellFormed_keeps_invalid_width : (Instr.readBits .recv 63).wellFormed = true := rfl

/-! Decoding: words written out from R81 and R82 as RSV ++ WIDTH ++ BUF ++ OP. -/

theorem test_decode_readBits : decodeOpw (0b00000000000000000000#20 ++ 0b001100#6 ++ 0b01#2 ++ 0b0000#4) = .ok (.readBits .send 12) := by decide
theorem test_decode_writeBits : decodeOpw (0b00000000000000000000#20 ++ 0b100000#6 ++ 0b01#2 ++ 0b0001#4) = .ok (.writeBits .send 32) := by decide
theorem test_decode_encode : decodeOpw (0b00000000000000000000#20 ++ 0b000000#6 ++ 0b00#2 ++ 0b0010#4) = .ok .encodeCommand := by decide
theorem test_decode_decode : decodeOpw (0b00000000000000000000#20 ++ 0b000000#6 ++ 0b10#2 ++ 0b0011#4) = .ok (.decodeCommand .recv) := by decide
theorem test_decode_init : decodeOpw (0b00000000000000000000#20 ++ 0b000000#6 ++ 0b00#2 ++ 0b0100#4) = .ok .initBridge := by decide
theorem test_decode_begin : decodeOpw (0b00000000000000000000#20 ++ 0b000000#6 ++ 0b00#2 ++ 0b0101#4) = .ok .beginBus := by decide
theorem test_decode_stage : decodeOpw (0b00000000000000000000#20 ++ 0b000000#6 ++ 0b00#2 ++ 0b0110#4) = .ok .stageFrame := by decide
theorem test_decode_transfer : decodeOpw (0b00000000000000000000#20 ++ 0b000000#6 ++ 0b00#2 ++ 0b0111#4) = .ok .transferFrame := by decide
theorem test_decode_tearDown : decodeOpw (0b00000000000000000000#20 ++ 0b000000#6 ++ 0b00#2 ++ 0b1000#4) = .ok .tearDown := by decide

/-! Words that are no operation (R85, R86, R88, R89). -/

theorem test_illegal_words :
    decodeOpw 0x00001000 = .illegal .reservedBits ∧ decodeOpw 0x80000002 = .illegal .reservedBits ∧ decodeOpw 0x00000009 = .illegal .reservedOperation ∧
    decodeOpw 0x00000030 = .illegal .reservedBuffer ∧ decodeOpw 0x00000021 = .illegal .reservedBuffer ∧ decodeOpw 0x00000033 = .illegal .reservedBuffer ∧
    decodeOpw 0x00000042 = .illegal .unusedField ∧ decodeOpw 0x00000014 = .illegal .unusedField ∧ decodeOpw 0x00000043 = .illegal .unusedField := by decide

/-! Wire images: byte maps of R144 to R152, written out bit by bit where a field crosses a byte, else the rules' examples. -/

theorem test_decode_setStripZLevel : decodeWire [0b00#2 ++ 0b000001#6, 0b00#2 ++ 0b110010#6] = .ok (.setStripZLevel 200) := by decide
theorem test_decode_setTimingOffset : decodeWire [0x82, 0x15, 0x8D, 0x04] = .ok (.setTimingOffset 0x123456) := by decide
theorem test_decode_setTimingScale : decodeWire [0xC3, 0x7B, 0xF3, 0x2A] = .ok (.setTimingScale 0xABCDEF) := by decide
theorem test_decode_clearMemory : decodeWire [0b11#2 ++ 0b000100#6, 0x00] = .ok (.clearMemory 3) := by decide
theorem test_decode_setZLevelQuad : decodeWire [0xC5, 0x5A] = .ok (.setZLevelQuad 3 0x5A) := by decide
theorem test_decode_setPaletteColor : decodeWire [0x06, 0x00, 0x05, 0xFF, 0x00, 0x80] = .ok (.setPaletteColor 0 5 255 0 128) := by decide
theorem test_decode_drawZOrderPixels : decodeWire [0x47, 0x34, 0x12, 0xEF, 0xBE, 0x07] = .ok (.drawZOrderPixels 1 0x1234 0xBEEF 7) := by decide
theorem test_decode_drawXYPixel : decodeWire [0x88, 0x0A, 0x14, 0xFF] = .ok (.drawXYPixel 2 10 20 255) := by decide
theorem test_decode_drawRect : decodeWire [0xC9, 0x01, 0x02, 0x03, 0x04, 0x05] = .ok (.drawRect 3 1 2 3 4 5) := by decide

/-- R155, R156, R162: padding is not checked, short images are truncated, unregistered opcodes are unknown. -/
theorem test_decode_images :
    decodeWire [0x01, 0xF2] = .ok (.setStripZLevel 200) ∧ decodeWire [0x82, 0x15, 0x8D] = .illegal .truncated ∧ decodeWire [] = .illegal .truncated ∧
    decodeWire [0x00, 0x00] = .illegal .unknownOpcode ∧ decodeWire [0x0A] = .illegal .unknownOpcode := by decide

/-- The table's words of both formats. -/
theorem test_table_words :
    decodeTableWord 32 4 = some .initBridge ∧ decodeTableWord 32 9 = none ∧ decodeTableWord 8 0x09 = some (.drawRect 0 0 0 0 0 0) ∧
    decodeTableWord 8 0x0A = none := by decide

/-! Small states: C_MAX = 8. -/

/-- Right after reset. -/
def fresh (r : Role) : State := State.resetOf ⟨r, 1⟩

/-- Ready, with C = 8. -/
def ready (r : Role) : State := { fresh r with bridge := .ready, latched := ⟨8, 0, 0, 0, 0, 0, 0⟩ }

/-- A buffer of these bytes. -/
def bytes (l : List Byte) : Memory := Memory.zero.writeBytes 0 l

/-- What a next state shows; nothing where the machine stops. -/
def look {α : Type} (r : Host.Outcome State Fault Refusal) (f : State → α) : Option α :=
  match r with
  | .next t => some (f t)
  | .fault _ => none
  | .refused _ => none

/-! One step of each operation: the examples of the rules. -/

/-- R118's example. -/
theorem test_readBits_example :
    look (exec (.readBits .cmd 8) { fresh .master with cmd := bytes [0x01, 0x32], offset := 6, len := 2 }) (fun t => (t.result, t.err)) = some (200, .ok) := by
  decide

/-- spec/95_test_vectors.md: 32 bits at offset 31 of 12 34 56 78 9A BC DE F0. -/
theorem test_readBits_five_bytes :
    look (exec (.readBits .cmd 32) { fresh .slave with cmd := bytes [0x12, 0x34, 0x56, 0x78, 0x9A, 0xBC, 0xDE, 0xF0], offset := 31, len := 8 })
      (fun t => t.result) = some 0xE1BD7934 := by decide

/-- R119's example. -/
theorem test_writeBits_example :
    look (exec (.writeBits .cmd 10) { fresh .master with cmd := bytes [0xFF, 0xFF, 0xFF, 0xFF, 0xFF, 0xFF, 0xFF, 0xFF], offset := 3, len := 8 })
      (fun t => t.cmd.readBytes 0 8) = some [0x07, 0xE0, 0xFF, 0xFF, 0xFF, 0xFF, 0xFF, 0xFF] := by decide

/-- spec/95_test_vectors.md: VALUE bits above the width are ignored. -/
theorem test_writeBits_masks :
    look (exec (.writeBits .cmd 3) { fresh .master with offset := 2, len := 8, value := 0xFFFFFFFF }) (fun t => t.cmd) = some [(0, 0x1C)] := by decide

/-- R154's example. -/
theorem test_encode_example :
    look (exec .encodeCommand { fresh .master with opcode := 1, field0 := 200, cmd := bytes [9, 9, 9] }) (fun t => (t.cmd, t.encLen, t.err)) =
      some ([(0, 0x01), (1, 0x32)], 2, .ok) := by decide

/-- R152's example, and C2: six bytes. -/
theorem test_encode_drawRect :
    look (exec .encodeCommand { fresh .slave with opcode := 9, field0 := 3, field1 := 1, field2 := 2, field3 := 3, field4 := 4, field5 := 5 })
      (fun t => (t.cmd.readBytes 0 8, t.encLen)) = some ([0xC9, 0x01, 0x02, 0x03, 0x04, 0x05, 0, 0], 6) := by decide

/-- R155's example. -/
theorem test_decodeCommand_example :
    look (exec (.decodeCommand .recv) { ready .slave with recv := bytes [0x06, 0x00, 0x05, 0xFF, 0x00, 0x80], len := 8, field5 := 7 })
      (fun t => (t.opcode, t.fields, t.err)) = some (6, [0, 5, 255, 0, 128, 0], .ok) := by decide

/-- R155: LEN = 3 with a 30-bit command is truncated, and OPCODE stays. -/
theorem test_decodeCommand_truncated :
    look (exec (.decodeCommand .cmd) { fresh .master with cmd := bytes [0x02], len := 3, opcode := 5 }) (fun t => (t.opcode, t.err)) =
      some (5, .truncatedBuffer) := by decide

/-- R182's example, with C = 8; then a second INIT. -/
theorem test_init_example :
    look (exec .initBridge { fresh .master with send := bytes [1, 2], cfgFreq := 5 })
      (fun t => (t.bridge, t.hostRead 0x5C, t.send.length, t.latched.freq)) = some (.initialized, 8, 0, 5) := by decide
theorem test_init_twice : look (exec .initBridge (ready .master)) (fun t => (t.bridge, t.err)) = some (.ready, .alreadyInitialized) := by decide

/-- R183's example. -/
theorem test_begin_example : look (exec .beginBus { ready .slave with bridge := .initialized }) (fun t => (t.bridge, t.err)) = some (.ready, .ok) := by decide
theorem test_begin_uninitialized : look (exec .beginBus (fresh .slave)) (fun t => t.err) = some .notReady := by decide

/-- R189's example. -/
theorem test_stage_example :
    look (exec .stageFrame { ready .master with send := bytes [0x11, 0x22, 0x33, 0x44, 0x55, 0x66, 0x77, 0x88]
                                                env := { (ready .master).env with ingress := [[0xAA, 0xBB, 0xCC]] } })
      (fun t => (t.send.readBytes 0 8, t.staged, t.ingressLen, t.err)) = some ([0xAA, 0xBB, 0xCC, 0, 0, 0, 0, 0], true, 3, .ok) := by decide

/-- R191: nine bytes into C = 8. -/
theorem test_stage_overflow :
    look (exec .stageFrame { ready .master with staged := true, env := { (ready .master).env with ingress := [[1, 2, 3, 4, 5, 6, 7, 8, 9]] } })
      (fun t => (t.send.length, t.staged, t.ingressLen, t.err)) = some (0, false, 9, .frameOverflow) := by decide

/-- R196's example: the issue. -/
theorem test_transfer_issue :
    look (exec .transferFrame { ready .master with send := bytes [0x06, 0x00, 0x05, 0xFF, 0x00, 0x80, 0x00, 0x00] })
      (fun t => (t.xfer, t.busy, t.sel)) = some (some ⟨[0xFF050006, 0x00008000], some 0⟩, true, true) := by decide

/-- R196's example: the completion. -/
theorem test_transfer_complete :
    look (step { ready .master with busy := true, sel := true, err := .notReady
                                    env := { (ready .master).env with turns := [.bus (.complete [0x44332211, 0x88776655])] } })
      (fun t => (t.recv.readBytes 0 8, t.busy, t.sel, t.err)) = some ([0x11, 0x22, 0x33, 0x44, 0x55, 0x66, 0x77, 0x88], false, false, .ok) := by decide

/-- R184's example. -/
theorem test_tearDown_example : look (exec .tearDown (ready .master)) (fun t => (t.bridge, t.err, t.hostRead 0x5C)) = some (.uninitialized, .ok, 0) := by decide

/-- R159, R275: DECODE of SetStripZLevel on the serializer from its reset visits 6 states; v_0 takes the field, v_1 to v_5 keep theirs. -/
theorem test_serializer_decode :
    let c := decodeOnFsm Serializer.reset .cmd { fresh .master with cmd := bytes [0x01, 0x32], len := 2 }
    c.1 = 6 ∧ c.2.ser.v.toList = [200, 0, 0, 0, 0, 0] ∧ c.2.ser.state = .idle ∧ c.2.host.field0 = 200 := by decide

/-- R159: COMMIT writes 0 past the field count, whatever an earlier command left in v_1 to v_5. -/
theorem test_serializer_stale :
    let c := decodeOnFsm { Serializer.reset with v := #v[1, 2, 3, 4, 5, 6] } .cmd { fresh .master with cmd := bytes [0x01, 0x32], len := 2 }
    c.2.ser.v.toList = [200, 2, 3, 4, 5, 6] ∧ c.2.host.fields = [200, 0, 0, 0, 0, 0] := by decide

/-! One step of each wire command: what DECODE of its image gives (R143 to R152). -/

theorem test_setStripZLevel : look (exec (.setStripZLevel 200) (fresh .master)) (fun t => (t.opcode, t.fields)) = some (1, [200, 0, 0, 0, 0, 0]) := by decide
theorem test_setTimingOffset :
    look (exec (.setTimingOffset 0x123456) (fresh .master)) (fun t => (t.opcode, t.fields)) = some (2, [0x123456, 0, 0, 0, 0, 0]) := by decide
theorem test_setTimingScale :
    look (exec (.setTimingScale 0xABCDEF) (fresh .master)) (fun t => (t.opcode, t.fields)) = some (3, [0xABCDEF, 0, 0, 0, 0, 0]) := by decide
theorem test_clearMemory : look (exec (.clearMemory 0) { fresh .master with field0 := 7 }) (fun t => (t.opcode, t.fields)) = some (4, [0, 0, 0, 0, 0, 0]) := by decide
theorem test_setZLevelQuad : look (exec (.setZLevelQuad 3 0x5A) (fresh .master)) (fun t => (t.opcode, t.fields)) = some (5, [3, 0x5A, 0, 0, 0, 0]) := by decide
theorem test_setPaletteColor :
    look (exec (.setPaletteColor 0 5 255 0 128) (fresh .master)) (fun t => (t.opcode, t.fields)) = some (6, [0, 5, 255, 0, 128, 0]) := by decide
theorem test_drawZOrderPixels :
    look (exec (.drawZOrderPixels 1 0x1234 0xBEEF 7) (fresh .master)) (fun t => (t.opcode, t.fields)) = some (7, [1, 0x1234, 0xBEEF, 7, 0, 0]) := by decide
theorem test_drawXYPixel :
    look (exec (.drawXYPixel 2 10 20 255) (fresh .master)) (fun t => (t.opcode, t.fields)) = some (8, [2, 10, 20, 255, 0, 0]) := by decide
theorem test_drawRect :
    look (exec (.drawRect 3 1 2 3 4 5) (fresh .master)) (fun t => (t.opcode, t.fields)) = some (9, [3, 1, 2, 3, 4, 5]) := by decide

/-! The first step after reset runs the word that `withFetchWord` placed, whatever the build. -/

theorem test_reset_runs_encode : ∃ t, step (State.reset.withFetchWord 32 2) = .next t ∧ t.err = .unknownOpcode := ⟨_, rfl, rfl⟩
theorem test_reset_runs_drawRect : ∃ t, step (State.reset.withFetchWord 8 9) = .next t ∧ t.opcode = 9 ∧ t.err = .ok := ⟨_, rfl, rfl, rfl⟩
theorem test_reset_memory_is_canonical : State.reset.cmd.wf = true ∧ State.reset.send.wf = true ∧ State.reset.recv.wf = true := by decide

/-! The register window (R22 to R24, R41). -/

theorem test_cfgCap_legal :
    ((fresh .master).hostWrite 0x40 7).hostRead 0x40 = 4 ∧ ((fresh .master).hostWrite 0x40 0).hostRead 0x40 = 4 ∧
    ((fresh .master).hostWrite 0x43 1000).hostRead 0x41 = 8 := by decide
theorem test_status_word : ({ ready .master with busy := true, sel := true, staged := true, err := .illegalOp } : State).hostRead 0x04 = 0x1D9 := by decide

/-! Host programs (R97, R98). -/

theorem test_opLine_example : opLine (.readBits .send 12) = [.wr 0x00 0x00000310] := by decide

/-! Witnesses: for each statement with hypotheses, concrete values that meet them all, each clause at a boundary of its range. -/

/-- The same, with one host line to run. -/
def withLine (s : State) (l : HostLine) : State := { s with env := { s.env with turns := [.host], program := [l] } }

/-- The same, with one turn to take. -/
def withTurn (s : State) (t : Turn) : State := { s with env := { s.env with turns := [t] } }

theorem witness_DecodeOfEncodeIsTheInstruction :
    (Instr.writeBits .send 63).wellFormed = true ∧ (Instr.drawRect 3 255 255 255 255 255).wellFormed = true := by decide
theorem witness_EncodeOfDecodedWordIsTheWord : decodeOpw 0x00000FE0 = .ok (.readBits .recv 63) := by decide
theorem witness_WireDecodeIgnoresLaterBits :
    (Instr.setStripZLevel 200).isWire = true ∧ schemaOf (BitVec.ofNat 6 (streamNat (encode (.setStripZLevel 200)).bytes)) = some [⟨"zLevel", 8⟩] ∧
    6 + Schema.payloadBits [⟨"zLevel", 8⟩] ≤ [(0x01 : Byte), 0xF2].length * 8 ∧
    streamNat [0x01, 0xF2] % 2 ^ 14 = streamNat (encode (.setStripZLevel 200)).bytes % 2 ^ 14 := by decide
theorem witness_BitReadCoreClosedForm : 32 ≤ 32 ∧ bitReadCore (bytes [0x12, 0x34, 0x56, 0x78]) 0 32 = 0x78563412 := by decide
theorem witness_BitWriteCoreClosedForm : (bytes [0x12, 0, 0x56]).wf = true ∧ 32 ≤ 32 := by decide
theorem witness_SliceTouchesItsByteSpanOnly : (bytes [0x12, 0, 0x56]).wf = true ∧ 1 ≤ 1 ∧ 32 ≤ 32 := by decide
theorem witness_ReadBitsPutsStreamBitsInResult :
    ({ fresh .slave with len := 8, offset := 32 } : State).sliceInBounds .cmd 32 ∧ ({ ready .slave with len := 8, offset := 63 } : State).sliceInBounds .recv 1 := by
  decide
theorem witness_ReadBitsReportsItsFirstError :
    ¬ (fresh .master).allocated .send ∧ ((fresh .master).allocated .cmd ∧ (33 : BitVec 6).toNat = 33) ∧
    ((ready .master).bufferSize .send < ({ ready .master with len := 9 } : State).len.toNat) ∧
    (({ ready .master with len := 8, offset := 57 } : State).len.toNat * 8 < 57 + (8 : BitVec 6).toNat) := by decide
theorem witness_WriteBitsChangesItsTargetBitsOnly :
    (({ fresh .slave with len := 8, offset := 32 } : State).sliceInBounds .cmd 32 ∧ (fresh .slave).cmd.wf = true) ∧
    (({ ready .slave with len := 8, offset := 63 } : State).sliceInBounds .send 1 ∧ (ready .slave).send.wf = true) := by decide
theorem witness_WriteBitsReportsItsFirstError :
    (Buffer.send ≠ .recv ∧ ¬ (fresh .master).allocated .send) ∧ ((fresh .master).allocated .cmd ∧ (0 : BitVec 6).toNat = 0) ∧
    ((ready .master).bufferSize .send < ({ ready .master with len := 9 } : State).len.toNat) := by decide
theorem witness_SliceRoundTripIsolationAtomicity :
    (Buffer.send ≠ .recv ∧ ({ ready .slave with len := 8, offset := 32, value := 5 } : State).sliceInBounds .send 32 ∧
      ((ready .slave).buffer .send).wf = true) ∧
    ((ready .slave).allocated .recv ∧ ({ ready .slave with len := 0 } : State).len.toNat * 8 < 0 + (1 : BitVec 6).toNat) := by decide
theorem witness_EncodeLeavesTheCommandImage :
    ({ fresh .master with opcode := 9, field0 := 7 } : State).commandHeld = some (.drawRect 3 0 0 0 0 0) ∧ (fresh .master).cmd.wf = true := by decide
theorem witness_EncodeOfUnregisteredOpcodeFails : (fresh .master).opcode.toNat = 0 ∧ 10 ≤ (0x0A : BitVec 6).toNat := by decide
theorem witness_DecodePerformsTheWireCommand :
    let s : State := { ready .master with send := bytes [0x01, 0x32], len := 8 }
    s.allocated .send ∧ s.len.toNat ≤ s.bufferSize .send ∧ decodeWire ((s.buffer .send).readBytes 0 s.len.toNat) = .ok (.setStripZLevel 200) := by decide
theorem witness_DecodeReportsItsFirstError :
    (¬ (fresh .master).allocated .recv ∧ ∀ k < 6, (0 : BitVec 6).getLsbD k = streamBit ((fresh .master).buffer .recv) k) ∧
    (8 < (9 : Word).toNat) ∧
    (∀ k < 6, (2 : BitVec 6).getLsbD k = streamBit (bytes [0x02]) k) ∧ schemaOf 2 = some [⟨"offsetNanoseconds", 24⟩] ∧
    (3 : Word).toNat * 8 < 6 + Schema.payloadBits [⟨"offsetNanoseconds", 24⟩] := by decide
theorem witness_EncodeThenDecodeKeepsTheFields :
    let s : State := { fresh .slave with opcode := 1, field0 := 456 }
    schemaOf s.opcode = some [⟨"zLevel", 8⟩] ∧ s.cmd.wf = true ∧
      look (exec .encodeCommand s) (fun t => decide (t.encLen.toNat ≤ (2 : Word).toNat ∧ (8 : Word).toNat ≤ 8)) = some true := by decide
theorem witness_WireCommandIsHeldAfterwards : (Instr.clearMemory 1023).isWire = true := rfl
theorem witness_EncodePathComputesEncode : schemaOf ({ fresh .slave with opcode := 9 } : State).opcode ≠ none := by decide
theorem witness_DecodePathComputesDecode :
    look (exec (.decodeCommand .cmd) { fresh .slave with cmd := bytes [0x04], len := 2 }) (fun t => decide (t.err = .ok ∧ schemaOf t.opcode ≠ none)) =
      some true := by decide
theorem witness_InitLatchesAndAllocates :
    ((fresh .master).bridge = .uninitialized ∧ (fresh .master).build.role = .master) ∧ (fresh .slave).bridge = .uninitialized ∧
      (fresh .slave).build.role = .slave := by decide
theorem witness_BeginMakesTheBridgeReady : ({ ready .master with bridge := .initialized } : State).bridge = .initialized := rfl
theorem witness_TearDownReleasesTheBridge :
    (fresh .master).bridge = .uninitialized ∧ (ready .slave).bridge ≠ .uninitialized ∧ ∃ t, exec .tearDown (ready .slave) = .next t := by
  refine ⟨rfl, by decide, ?_⟩
  exact ⟨_, rfl⟩
theorem witness_BridgeStateForbidsOperations :
    (ready .master).bridge ≠ .uninitialized ∧ (fresh .master).bridge = .uninitialized ∧ (ready .master).bridge = .ready ∧ (fresh .master).bridge ≠ .ready ∧
    ({ ready .master with bridge := .initialized } : State).bridge ≠ .ready := by decide
theorem witness_StageWithoutBytesKeepsSend :
    (ready .master).bridge = .ready ∧ (ready .master).env.ingress = [] ∧ ({ (ready .master).env with ingress := [[], [1]] } : Env).ingress = [] :: [[1]] ∧
    (ready .slave).bridge = .ready ∧ (ready .slave).build.role = .slave := by decide
theorem witness_StageOverflowKeepsSend :
    (ready .master).bridge = .ready ∧ (ready .master).build.role = .master ∧ (ready .master).capacity < [(1 : Byte), 2, 3, 4, 5, 6, 7, 8, 9].length := by decide
theorem witness_StageCopiesAndPads :
    (ready .master).bridge = .ready ∧ (ready .master).send.wf = true ∧ 1 ≤ [(1 : Byte)].length ∧
    [(1 : Byte), 2, 3, 4, 5, 6, 7, 8].length ≤ (ready .master).capacity ∧ (ready .slave).build.role = .slave ∧ (ready .slave).bridge = .ready := by decide
theorem witness_TransferIssueSnapshotsSend :
    (ready .master).bridge = .ready ∧ (ready .master).build.role = .master ∧ (ready .slave).bridge = .ready ∧ (ready .slave).build.role = .slave := by decide
theorem witness_CompletionFillsRecv :
    let s := withTurn { ready .slave with busy := true } (.bus (.complete [1, 2]))
    s.env.turns = [.bus (.complete [1, 2])] ∧ s.busy = true ∧ [(1 : Word), 2].length = s.capacity / 4 ∧ s.recv.wf = true := by decide
theorem witness_TimeoutAbandonsTheTransfer :
    let s := withTurn { ready .master with busy := true } (.bus .timeout)
    s.env.turns = [.bus .timeout] ∧ s.busy = true ∧ s.build.role = .master ∧ s.recv.wf = true := by decide
theorem witness_BusOutcomesEnabledInFlightOnly :
    (({ ready .master with busy := true } : State).busy = true ∧ [(1 : Word), 2].length = (ready .master).capacity / 4) ∧
    ((withTurn (ready .master) (.bus .timeout)).env.turns = [.bus .timeout] ∧ (ready .master).busy = false) ∧
    ((withTurn { ready .slave with busy := true } (.bus .timeout)).env.turns = [.bus .timeout] ∧ (ready .slave).build.role = .slave) := by decide
theorem witness_TransferEndsByCompletionOrReset :
    let s := withTurn { ready .slave with busy := true } (.bus (.complete [1, 2]))
    ∃ t, step s = .next t ∧ s.busy = true ∧ t.busy = false := ⟨_, rfl, rfl, rfl⟩

/-- A state with no transfer in flight that holds what `State.Coherent` asks. -/
theorem coherent_ready (r : Role) : (ready r).Coherent where
  cmdWf := by cases r <;> decide
  cmdWithin := by cases r <;> decide
  sendWf := by cases r <;> decide
  sendWithin := by cases r <;> decide
  recvWf := by cases r <;> decide
  recvWithin := by cases r <;> decide
  cfgCapLegal := by cases r <;> decide
  capacityLegal := by cases r <;> decide
  busyIsXfer := by cases r <;> decide
  busyIsReady := by cases r <;> decide
  xferShape := fun x h => by cases r <;> cases h
  selIsInFlight := by cases r <;> decide
  stagedIsReady := by cases r <;> decide
  stagedLength := by cases r <;> decide
  slaveRegisters := by cases r <;> decide
  encLenPossible := by cases r <;> decide

/-- A Master's transfer in flight, about to time out. -/
def inFlight : State := withTurn { ready .master with busy := true, sel := true, xfer := some ⟨[0, 0], some 0⟩ } (.bus .timeout)

theorem coherent_inFlight : inFlight.Coherent :=
  { coherent_ready .master with
    busyIsXfer := rfl
    busyIsReady := fun _ => rfl
    xferShape := fun x h => by cases h; decide
    selIsInFlight := by decide }

theorem witness_SilentPeerMeansTimeout :
    inFlight.Coherent ∧ inFlight.peerSilent ∧ inFlight.build.role = .master ∧ inFlight.busy = true ∧ ∃ t, step inFlight = .next t ∧ t.busy = false := by
  refine ⟨coherent_inFlight, ?_, rfl, rfl, ?_⟩
  · intro words h; simp [inFlight, withTurn] at h
  · exact ⟨_, rfl, rfl⟩
theorem witness_StepKeepsCoherence : inFlight.Coherent ∧ ∃ t, step inFlight = .next t := ⟨coherent_inFlight, _, rfl⟩
theorem witness_BusyHoldsTheOpwWrite :
    (let s := withLine { ready .slave with busy := true } (.wr 0x03 7)
     s.busy = true ∧ (0x03 : BitVec 8).toNat < 4 ∧ s.env.turns = [.host] ∧ s.held = none ∧ s.env.program[s.env.line]? = some (.wr 0x03 7)) ∧
    (let s := withTurn { ready .slave with busy := true, held := some 7 } .host
     s.busy = true ∧ s.env.turns = [.host] ∧ s.held = some 7) ∧
    (let s := withTurn { ready .slave with busy := true, held := some 7 } .reset
     s.env.turns = [.reset] ∧ s.held = some 7) := by decide
theorem witness_StepRunsTheDecodedInstruction :
    (let s := withLine (fresh .slave) (.wr 0x00 4)
     s.env.turns = [.host] ∧ s.busy = false ∧ decodeOpw 4 = .ok .initBridge ∧ s.held = none ∧ s.env.program[s.env.line]? = some (.wr 0x00 4)) ∧
    (withTurn { ready .slave with held := some 4 } .host).held = some 4 := by decide
theorem witness_IllegalWordRaisesIllegalOpOnly :
    (let s := withLine (fresh .slave) (.wr 0x03 9)
     s.env.turns = [.host] ∧ s.busy = false ∧ decodeOpw 9 = .illegal .reservedOperation ∧ (0x03 : BitVec 8).toNat < 4 ∧ s.held = none ∧
       s.env.program[s.env.line]? = some (.wr 0x03 9)) ∧
    (let s := withTurn { ready .slave with held := some 9 } .host
     s.env.turns = [.host] ∧ s.busy = false ∧ s.held = some 9) := by decide
theorem witness_HostWritesLeaveTheBridge :
    let s := withLine { ready .slave with busy := true } (.wr 0x04 9)
    4 ≤ (0x04 : BitVec 8).toNat ∧ 4 ≤ (0xFF : BitVec 8).toNat ∧ s.env.turns = [.host] ∧ s.held = none ∧
      s.env.program[s.env.line]? = some (.wr 0x04 9) := by decide
theorem witness_HostReadsChangeNothing :
    (let s := withLine (fresh .slave) (.rd 0x04)
     s.env.turns = [.host] ∧ s.held = none ∧ s.env.program[s.env.line]? = some (.rd 0x04)) ∧
    (let s := withLine (fresh .slave) (.beq 0x04 4 4 1 0)
     s.env.program[s.env.line]? = some (.beq 0x04 4 4 1 0)) ∧
    (let s := withLine (fresh .slave) (.bne 0x04 4 4 1 0)
     s.env.program[s.env.line]? = some (.bne 0x04 4 4 1 0)) := by decide
theorem witness_RegistersReadBackWhatTheyStore : (fresh .master).build.role = .master := rfl
theorem witness_RegisterWritesLeaveTheOthers : regAt 0x08 ≠ regAt 0x0C ∧ regAt 0x64 ≠ regAt 0x68 := by decide
theorem witness_CfgCapHoldsLegalCapacities : (fresh .master).bridge = .uninitialized := rfl
theorem witness_SlaveMasterOnlyRegistersAreAbsent : (fresh .slave).build.role = .slave := rfl
theorem witness_OffsetsRoundDownAndTheRestIsReserved : 0x68 ≤ (0x68 : BitVec 8).toNat ∧ 0x68 ≤ (0xFF : BitVec 8).toNat := by decide
theorem witness_BuildParametersNeverChange : ∃ t, step inFlight = .next t := ⟨_, rfl⟩
theorem witness_BridgeStateMovesByItsOperations :
    ∃ t, step (withLine (fresh .slave) (.wr 0x00 4)) = .next t ∧ t.bridge ≠ (fresh .slave).bridge := ⟨_, rfl, by decide⟩
theorem witness_OnlyReadBitsWritesResult :
    ∃ t, step (withLine { fresh .slave with cmd := bytes [1], len := 1 } (.wr 0x00 0x40)) = .next t ∧ t.result ≠ (fresh .slave).result := ⟨_, rfl, by decide⟩
theorem witness_BuffersHaveTheirWritersOnly :
    (∃ t, step (withLine { fresh .slave with opcode := 1 } (.wr 0x00 2)) = .next t ∧ t.cmd ≠ (fresh .slave).cmd) ∧
    (∃ t, step (withLine { ready .slave with len := 1, value := 1 } (.wr 0x00 0x51)) = .next t ∧ t.send ≠ (ready .slave).send) ∧
    ∃ t, step (withTurn { ready .slave with busy := true } (.bus (.complete [1, 2]))) = .next t ∧ t.recv ≠ (ready .slave).recv :=
  ⟨⟨_, rfl, by decide⟩, ⟨_, rfl, by decide⟩, ⟨_, rfl, by decide⟩⟩
theorem witness_FailingOperationChangesErrAlone :
    (∃ t, exec .stageFrame (fresh .master) = .next t ∧ ¬ (Instr.stageFrame = .transferFrame ∧ (fresh .master).bridge = .ready) ∧ t.err ≠ .ok) ∧
    ((∃ t, exec .transferFrame (ready .slave) = .next t) ∧ (ready .slave).bridge = .ready) :=
  ⟨⟨_, rfl, by decide, by decide⟩, ⟨_, rfl⟩, rfl⟩
theorem witness_OperationsEndWithTheirStatuses : Instr.transferFrame.wellFormed = true ∧ ∃ t, exec .transferFrame (ready .slave) = .next t := ⟨rfl, _, rfl⟩
theorem witness_UninitializedHidesTheFramePair :
    let s := withLine (fresh .slave) (.wr 0x00 4)
    let s' : State := { s with send := bytes [1, 2, 3, 4, 5, 6, 7, 8], latched := ⟨12, 1, 1, 1, 1, 1, 1⟩ }
    s' = { s with send := s'.send, recv := s'.recv, latched := s'.latched } ∧ s.bridge = .uninitialized ∧ s.busy = false ∧
      s.send.within s.build.cMax = true ∧ s.recv.within s.build.cMax = true ∧ s'.send.within s.build.cMax = true ∧ s'.recv.within s.build.cMax = true := by decide
theorem witness_ResetStepGivesResetValues :
    (withTurn inFlight .reset).env.turns = [.reset] ∧ (withTurn inFlight .reset).send.wf = true ∧ (withTurn inFlight .reset).recv.wf = true := by decide
theorem witness_ExchangeSwapsTheFrames :
    (ready .master).build.role = .master ∧ (ready .slave).build.role = .slave ∧ (ready .master).bridge = .ready ∧ (ready .slave).bridge = .ready ∧
    (ready .master).latched.cap = (ready .slave).latched.cap ∧ (ready .master).capacity % 4 = 0 ∧ (ready .master).recv.wf = true ∧
    (ready .slave).recv.wf = true := by decide
theorem witness_ExchangeSwapsTheFrames_turns :
    inFlight.latched.cap = (ready .slave).latched.cap ∧ (∃ t, step inFlight = .next t) ∧
    (withTurn (ready .slave) (.bus (.complete [1, 2]))).env.turns = [.bus (.complete [1, 2])] ∧
    ((∀ o ts, (withTurn (ready .slave) .host).env.turns ≠ .bus o :: ts) ∧ ∃ t, step (withTurn (ready .slave) .host) = .next t) ∧
    (ready .slave).busy = false := by
  refine ⟨rfl, ?_, rfl, ⟨?_, ?_⟩, rfl⟩
  · exact ⟨_, rfl⟩
  · intro o ts h; simp [withTurn] at h
  · exact ⟨_, rfl⟩
theorem witness_MismatchedCompositionIsRefused :
    let l : Link := ⟨ready .master, { ready .slave with latched := ⟨4, 0, 0, 0, 0, 0, 0⟩ }⟩
    l.master.bridge ≠ .uninitialized ∧ l.slave.bridge ≠ .uninitialized ∧ l.master.latched.cap ≠ l.slave.latched.cap := by decide

end Sys2Proof.Tests
end

section
/-! What every step keeps (spec/00_scope.md R3, R8): the build parameters, and `State.Coherent`. Both are proved once for each thing a
step can be (`step_cases`), and for an instruction once for each operation, through the lemma that says what the operation can do. -/

namespace Sys2Proof.Machine

/-! The build parameters. -/

/-- A host write to a register leaves the build parameters. -/
@[simp] theorem State.hostWrite_build (s : State) (offset : BitVec 8) (v : Word) : (s.hostWrite offset v).build = s.build := by
  have onMaster_build : ∀ t : State, t.build = s.build → (s.onMaster t).build = s.build := by
    intro t ht
    cases hr : s.build.role with
    | master => rw [State.onMaster_master hr, ht]
    | slave => rw [State.onMaster_slave hr]
  unfold State.hostWrite
  cases regAt offset with
  | none => rfl
  | some r =>
    cases r with
    | timeout | cfgFreq | cfgSelpin | cfgBindAddr | cfgBindPort => exact onMaster_build _ rfl
    | _ => rfl

/-- A bus turn leaves the build parameters. -/
@[simp] theorem State.busStep_build (s : State) (o : Completion) : (s.busStep o).build = s.build := by
  obtain ⟨-, e⟩ | ⟨-, _, -, e⟩ | ⟨-, -, e⟩ := s.busStep_cases o <;> rw [e] <;> rfl

/-- No instruction changes the build parameters. -/
theorem exec_build {i : Instr} {s t : State} (h : exec i s = .next t) : t.build = s.build := by
  cases hw : i.isWire with
  | true =>
    obtain ⟨op, vals, e⟩ := exec_wire hw s
    rw [e] at h
    cases h
    rfl
  | false =>
    cases i with
    | readBits buf width => obtain ⟨_, -, rfl⟩ | ⟨-, rfl⟩ := execReadBits_cases h <;> rfl
    | writeBits buf width =>
      obtain ⟨-, rfl⟩ | ⟨-, _, -, rfl⟩ | ⟨-, -, rfl⟩ := execWriteBits_cases h
      · rfl
      · rfl
      · rw [State.raise_build, State.setBuffer_build]
    | encodeCommand => obtain ⟨-, rfl⟩ | ⟨_, -, rfl⟩ := execEncode_cases h <;> rfl
    | decodeCommand buf => obtain ⟨_, -, rfl⟩ | ⟨_, _, rfl⟩ := execDecode_cases h <;> rfl
    | initBridge => obtain ⟨-, rfl⟩ | ⟨-, rfl⟩ := execInit_cases h <;> rfl
    | beginBus => obtain ⟨-, rfl⟩ | ⟨-, rfl⟩ | ⟨-, rfl⟩ := execBegin_cases h <;> rfl
    | stageFrame =>
      obtain ⟨-, rfl⟩ | ⟨-, _, _, -, rfl | ⟨-, rfl⟩ | ⟨-, -, rfl⟩⟩ := execStage_cases h <;> rfl
    | transferFrame => obtain ⟨-, rfl⟩ | ⟨-, rfl⟩ := execTransfer_cases h <;> rfl
    | tearDown => obtain ⟨_, rfl⟩ := execTearDown_cases h; rfl
    | _ => cases hw

/-- No step changes the build parameters (R3). -/
theorem step_build {s t : State} (h : step s = .next t) : t.build = s.build := by
  obtain ⟨env, rfl⟩ | ⟨-, v, env, rfl⟩ | ⟨off, v, env, rfl⟩ | ⟨o, ts, -, rfl⟩ | ⟨-, rfl⟩ | ⟨-, env, rfl⟩ | ⟨i, env, -, -, -, he⟩ :=
    step_cases h
  · rfl
  · rfl
  · exact State.hostWrite_build _ off v
  · exact State.busStep_build _ o
  · rfl
  · rfl
  · exact (exec_build he : t.build = _)

/-- PARAM, at offset 0x60, shows the build parameters and nothing else (R49). -/
theorem State.hostRead_param_congr {s t : State} (hb : t.build = s.build) : t.hostRead 0x60 = s.hostRead 0x60 := by
  change t.param = s.param
  rw [State.param, State.param, hb]

/-- So does PARAM_CMAX, at offset 0x64 (R50). -/
theorem State.hostRead_paramCmax_congr {s t : State} (hb : t.build = s.build) : t.hostRead 0x64 = s.hostRead 0x64 := by
  change BitVec.ofNat 32 t.build.cMax = BitVec.ofNat 32 s.build.cMax
  rw [hb]

/-- Settles O50: PARAM and PARAM_CMAX are read off the build parameters alone, and no step changes those. -/
theorem buildParametersNeverChange : Obligations.BuildParametersNeverChange := by
  intro s t h
  have hb : t.build = s.build := step_build h
  exact ⟨hb, State.hostRead_param_congr hb, State.hostRead_paramCmax_congr hb⟩

/-! Capacities and lengths. -/

/-- C_MAX is a multiple of 4 from 4 to 2^28 (R6). -/
theorem cMax_legal (b : Build) : b.cMax % 4 = 0 ∧ 4 ≤ b.cMax ∧ b.cMax ≤ 2 ^ 28 := by
  have := b.lastWord.isLt
  unfold Build.cMax
  omega

/-- A multiple of 4 from 4 to C_MAX is a legal capacity also as a register value: it fits 32 bits. -/
theorem LegalCap.ofNat {b : Build} {n : Nat} (h4 : n % 4 = 0) (hlo : 4 ≤ n) (hhi : n ≤ b.cMax) : LegalCap b (BitVec.ofNat 32 n) := by
  obtain ⟨-, -, hmax⟩ := cMax_legal b
  have hn : (BitVec.ofNat 32 n).toNat = n := by rw [BitVec.toNat_ofNat]; omega
  rw [LegalCap, hn]
  exact ⟨h4, hlo, hhi⟩

/-- What CFG_CAP takes of a written value is a legal capacity (R41). -/
theorem legalCapacity_legal (b : Build) (v : Word) : LegalCap b (legalCapacity b.cMax v) := by
  obtain ⟨hmod, hlo, -⟩ := cMax_legal b
  exact LegalCap.ofNat (by omega) (by omega) (by omega)

/-- A free value of a buffer has a byte for each index. -/
@[simp] theorem length_freeBytes (byteAt : Nat → Byte) (n : Nat) : (freeBytes byteAt n).length = n := by simp [freeBytes]

/-- A frame of `c` bytes has `c / 4` outbound words (R194). -/
@[simp] theorem length_outboundWords (m : Memory) (c : Nat) : (outboundWords m c).length = c / 4 := by simp [outboundWords]

/-- The image of a registered opcode takes 2, 4 or 6 bytes (R37). -/
theorem buildImage_bytes_possible {op : BitVec 6} {sch : Schema} (h : schemaOf op = some sch) (vals : List Word) :
    cdiv (buildImage op sch vals).2 8 = 2 ∨ cdiv (buildImage op sch vals).2 8 = 4 ∨ cdiv (buildImage op sch vals).2 8 = 6 := by
  rw [buildImage_bits]
  rcases schemaOf_rows h with ⟨-, rfl⟩ | ⟨-, rfl⟩ | ⟨-, rfl⟩ | ⟨-, rfl⟩ | ⟨-, rfl⟩ | ⟨-, rfl⟩ | ⟨-, rfl⟩ | ⟨-, rfl⟩ | ⟨-, rfl⟩ <;>
    simp [Schema.payloadBits, cdiv]

/-! What a coherent state gives. -/

/-- C does not exceed C_MAX outside Uninitialized (R8). -/
theorem State.Coherent.capacity_le {s : State} (h : s.Coherent) (hb : s.bridge ≠ .uninitialized) : s.capacity ≤ s.build.cMax :=
  (h.capacityLegal hb).2.2

/-- With BUSY = 0 no transfer is in flight (R28, R55). -/
theorem State.Coherent.xfer_of_idle {s : State} (h : s.Coherent) (hbusy : s.busy = false) : s.xfer = none := by
  have := h.busyIsXfer
  simpa [hbusy] using this

/-- A Slave never selects (R30). -/
theorem State.Coherent.sel_of_slave {s : State} (h : s.Coherent) (hr : s.build.role = .slave) : s.sel = false := by
  rw [h.selIsInFlight, hr]
  rfl

/-- Once a transfer is over the select line is not asserted, on either role (R198 to R200). -/
theorem State.Coherent.deselect_eq {s : State} (h : s.Coherent) : s.deselect = false := by
  unfold State.deselect
  cases hr : s.build.role with
  | master => rfl
  | slave => exact h.sel_of_slave hr

/-- The select line of a transfer in flight is asserted on a Master and on no Slave (R196, R30). -/
theorem State.Coherent.select_eq {s : State} (h : s.Coherent) : s.select = decide (s.build.role = .master) := by
  unfold State.select
  cases hr : s.build.role with
  | master => rfl
  | slave => exact h.sel_of_slave hr

/-- XFER.TMO is there on a Master only (R55). -/
theorem State.isSome_latchTimeout (s : State) : s.latchTimeout.isSome = decide (s.build.role = .master) := by
  unfold State.latchTimeout
  cases s.build.role <;> rfl

/-! Updates of fields that coherence does not speak of. -/

theorem State.Coherent.withHost {s : State} (h : s.Coherent) (held : Option Word) (env : Env) :
    ({ s with held := held, env := env } : State).Coherent :=
  { h with }

theorem State.Coherent.raise {s : State} (h : s.Coherent) (st : Status) : (s.raise st).Coherent :=
  { h with }

theorem State.Coherent.commitCommand {s : State} (h : s.Coherent) (op : BitVec 6) (vals : List Word) : (s.commitCommand op vals).Coherent :=
  { h with }

/-! The host's register writes, the bus agent and reset. -/

/-- A write to a Master-only register has to be checked on a Master only: a Slave ignores it (R24). -/
theorem State.Coherent.onMaster {s t : State} (h : s.Coherent) (ht : s.build.role = .master → t.Coherent) : (s.onMaster t).Coherent := by
  cases hr : s.build.role with
  | master => rw [State.onMaster_master hr]; exact ht hr
  | slave => rw [State.onMaster_slave hr]; exact h

/-- A register write keeps coherence: only CFG_CAP (R41) and the Master-only registers (R24) matter to it. -/
theorem State.Coherent.writeRegister {s : State} (h : s.Coherent) (v : Word) (r : Reg) : (s.writeRegister v r).Coherent := by
  have notSlave : s.build.role = .master → s.build.role ≠ .slave := fun hm => by rw [hm]; decide
  cases r with
  | cfgCap => exact { h with cfgCapLegal := legalCapacity_legal s.build v }
  | timeout | cfgFreq | cfgSelpin | cfgBindAddr | cfgBindPort =>
    exact h.onMaster fun hm => { h with slaveRegisters := fun hs => absurd hs (notSlave hm) }
  | _ => exact { h with }

theorem State.Coherent.hostWrite {s : State} (h : s.Coherent) (offset : BitVec 8) (v : Word) : (s.hostWrite offset v).Coherent := by
  unfold State.hostWrite
  cases regAt offset with
  | none => exact h
  | some r => exact h.writeRegister v r

/-- The end of a transfer keeps coherence, whichever bytes, C at most, it puts into RECV and whichever status it reports. -/
theorem State.Coherent.endTransfer {s : State} (h : s.Coherent) (hbusy : s.busy = true) {bs : List Byte} (hlen : bs.length ≤ s.capacity)
    (st : Status) (draws : Nat) :
    ({ s with recv := s.recv.writeBytes 0 bs, sel := s.deselect, busy := false, err := st, xfer := none, draws := draws } : State).Coherent :=
  have hbridge : s.bridge ≠ .uninitialized := by rw [h.busyIsReady hbusy]; decide
  have hfits : 0 + bs.length ≤ s.build.cMax := by have := h.capacity_le hbridge; omega
  { h with
    recvWf := Memory.wf_writeBytes _ _ h.recvWf
    recvWithin := Memory.within_writeBytes _ _ hfits h.recvWithin
    busyIsXfer := rfl
    busyIsReady := fun hb => nomatch hb
    xferShape := fun x hx => nomatch hx
    selIsInFlight := by rw [h.deselect_eq, Bool.and_false] }

/-- A bus turn keeps coherence: an outcome is enabled only in flight, and a Complete carries C/4 words (R197). -/
theorem State.Coherent.busStep {s : State} (h : s.Coherent) (o : Completion) : (s.busStep o).Coherent := by
  obtain ⟨-, e⟩ | ⟨hen, words, rfl, e⟩ | ⟨hen, rfl, e⟩ := s.busStep_cases o <;> rw [e]
  · exact h
  · simp only [State.completionEnabled, Bool.and_eq_true, decide_eq_true_eq] at hen
    obtain ⟨hbusy, hwords⟩ := hen
    exact h.endTransfer hbusy (by rw [inboundFrame_length, hwords]; omega) .ok s.draws
  · simp only [State.completionEnabled, Bool.and_eq_true] at hen
    exact h.endTransfer hen.1 (length_freeBytes _ _).le .transferTimeout (s.draws + 1)

/-- A reset step leads to a coherent state: SEND and RECV take C_MAX free bytes each, and the free C does not count yet. -/
theorem State.Coherent.resetStep {s : State} (h : s.Coherent) : s.resetStep.Coherent where
  cmdWf := rfl
  cmdWithin := rfl
  sendWf := Memory.wf_writeBytes _ _ h.sendWf
  sendWithin := Memory.within_writeBytes _ _ (by simp) h.sendWithin
  recvWf := Memory.wf_writeBytes _ _ h.recvWf
  recvWithin := Memory.within_writeBytes _ _ (by simp) h.recvWithin
  cfgCapLegal :=
    have ⟨hmod, hlo, _⟩ := cMax_legal s.build
    LegalCap.ofNat hmod hlo le_rfl
  capacityLegal := fun hb => absurd rfl hb
  busyIsXfer := rfl
  busyIsReady := fun hb => nomatch hb
  xferShape := fun x hx => nomatch hx
  selIsInFlight := (Bool.and_false _).symm
  stagedIsReady := fun _ => ⟨rfl, rfl⟩
  stagedLength := fun hs => nomatch hs
  slaveRegisters := fun _ => ⟨rfl, rfl, rfl, rfl, rfl, rfl, rfl⟩
  encLenPossible := .inl rfl

/-! The operations. -/

theorem execReadBits_coherent {buf : Buffer} {width : BitVec 6} {s t : State} (hs : s.Coherent) (h : execReadBits buf width s = .next t) :
    t.Coherent := by
  obtain ⟨st, -, rfl⟩ | ⟨-, rfl⟩ := execReadBits_cases h
  · exact hs.raise st
  · exact { hs with }

/-- WRITEBITS writes inside LEN bytes, and LEN is at most the buffer's size (R111, R112). -/
theorem execWriteBits_coherent {buf : Buffer} {width : BitVec 6} {s t : State} (hs : s.Coherent) (h : execWriteBits buf width s = .next t) :
    t.Coherent := by
  obtain ⟨-, rfl⟩ | ⟨-, st, -, rfl⟩ | ⟨hbuf, ⟨halloc, -, -, hlen, hspan⟩, rfl⟩ := execWriteBits_cases h
  · exact hs.raise _
  · exact hs.raise st
  · refine State.Coherent.raise ?_ .ok
    cases buf with
    | recv => exact absurd rfl hbuf
    | cmd =>
      have hsize : s.len.toNat ≤ cmdBytes := hlen
      exact { hs with
        cmdWf := bitWriteCore_wf hs.cmdWf _ _ _
        cmdWithin := bitWriteCore_within (by omega) hs.cmdWithin _ }
    | send =>
      have hsize : s.len.toNat ≤ s.capacity := hlen
      have hcap := hs.capacity_le (halloc.resolve_left (by decide))
      exact { hs with
        sendWf := bitWriteCore_wf hs.sendWf _ _ _
        sendWithin := bitWriteCore_within (by omega) hs.sendWithin _ }

theorem execEncode_coherent {s t : State} (hs : s.Coherent) (h : execEncode s = .next t) : t.Coherent := by
  obtain ⟨-, rfl⟩ | ⟨sch, hsch, rfl⟩ := execEncode_cases h
  · exact hs.raise _
  · exact { hs with
      cmdWf := Memory.wf_writeBytes _ _ hs.cmdWf
      cmdWithin := Memory.within_writeBytes _ _ (by simp) hs.cmdWithin
      encLenPossible := by
        dsimp only
        rcases buildImage_bytes_possible hsch s.fields with e | e | e <;> rw [e] <;> decide }

theorem execDecode_coherent {buf : Buffer} {s t : State} (hs : s.Coherent) (h : execDecode buf s = .next t) : t.Coherent := by
  obtain ⟨st, -, rfl⟩ | ⟨op, vals, rfl⟩ := execDecode_cases h
  · exact hs.raise st
  · exact hs.commitCommand op vals

/-- INIT latches C from CFG_CAP, which is legal (R41, R182). -/
theorem execInit_coherent {s t : State} (hs : s.Coherent) (hidle : s.busy = false) (h : execInit s = .next t) : t.Coherent := by
  obtain ⟨-, rfl⟩ | ⟨-, rfl⟩ := execInit_cases h
  · exact hs.raise _
  · have hxfer := hs.xfer_of_idle hidle
    exact { hs with
      sendWf := Memory.wf_zeroFill hs.sendWf _
      sendWithin := Memory.within_zeroFill hs.sendWithin _
      recvWf := Memory.wf_zeroFill hs.recvWf _
      recvWithin := Memory.within_zeroFill hs.recvWithin _
      capacityLegal := fun _ => hs.cfgCapLegal
      busyIsReady := fun hb => by simp [hidle] at hb
      xferShape := fun x hx => by simp [hxfer] at hx
      stagedIsReady := fun _ => ⟨rfl, rfl⟩
      stagedLength := fun hst => nomatch hst
      slaveRegisters := fun hr => ⟨rfl, rfl, (hs.slaveRegisters hr).2.2⟩ }

theorem execBegin_coherent {s t : State} (hs : s.Coherent) (h : execBegin s = .next t) : t.Coherent := by
  obtain ⟨-, rfl⟩ | ⟨-, rfl⟩ | ⟨hb, rfl⟩ := execBegin_cases h
  · exact hs.raise _
  · exact hs.raise _
  · exact { hs with
      capacityLegal := fun _ => hs.capacityLegal (by rw [hb]; decide)
      busyIsReady := fun _ => rfl
      stagedIsReady := fun hne => absurd rfl hne }

/-- TEARDOWN drops the staged frame with the bridge state (R184). -/
theorem execTearDown_coherent {s t : State} (hs : s.Coherent) (hidle : s.busy = false) (h : execTearDown s = .next t) : t.Coherent := by
  obtain ⟨ports, rfl⟩ := execTearDown_cases h
  exact { hs with
    capacityLegal := fun hb => absurd rfl hb
    busyIsReady := fun hb => by simp [hidle] at hb
    stagedIsReady := fun _ => ⟨rfl, rfl⟩
    stagedLength := fun hst => nomatch hst
    slaveRegisters := fun hr => ⟨rfl, rfl, (hs.slaveRegisters hr).2.2⟩ }

/-- STAGE (R189 to R192): what it counts is C at most when it stages, and a Slave's empty draw counts and stages nothing. -/
theorem execStage_coherent {s t : State} (hs : s.Coherent) (h : execStage s = .next t) : t.Coherent := by
  obtain ⟨-, rfl⟩ | ⟨hb, a, ingress, hslave, rfl | ⟨hover, rfl⟩ | ⟨hpos, hfits, rfl⟩⟩ := execStage_cases h
  · exact hs.raise _
  · exact { hs with
      stagedIsReady := fun _ => ⟨rfl, rfl⟩
      stagedLength := fun hst => nomatch hst
      slaveRegisters := fun hr => ⟨rfl, rfl, (hs.slaveRegisters hr).2.2⟩ }
  · exact { hs with
      stagedIsReady := fun hne => absurd hb hne
      stagedLength := fun hst => nomatch hst
      slaveRegisters := fun hr => by simp [hslave hr] at hover }
  · have hroom : 0 + a.length ≤ s.build.cMax := by have := hs.capacity_le (by rw [hb]; decide); omega
    have hcount : (BitVec.ofNat 32 a.length).toNat = a.length := by
      have : s.capacity < 2 ^ 32 := s.latched.cap.isLt
      rw [BitVec.toNat_ofNat]
      omega
    exact { hs with
      sendWf := Memory.wf_writeBytes _ _ (Memory.wf_zeroFill hs.sendWf _)
      sendWithin := Memory.within_writeBytes _ _ hroom (Memory.within_zeroFill hs.sendWithin _)
      stagedIsReady := fun hne => absurd hb hne
      stagedLength := fun _ => ⟨hpos.trans_eq hcount.symm, hcount.trans_le hfits⟩
      slaveRegisters := fun hr => by simp [hslave hr] at hpos }

/-- The issue of TRANSFER puts C/4 words and, on a Master, TMO in flight, and selects on a Master (R196). -/
theorem execTransfer_coherent {s t : State} (hs : s.Coherent) (h : execTransfer s = .next t) : t.Coherent := by
  obtain ⟨-, rfl⟩ | ⟨hb, rfl⟩ := execTransfer_cases h
  · exact hs.raise _
  · exact { hs with
      busyIsXfer := rfl
      busyIsReady := fun _ => hb
      xferShape := fun x hx => by
        cases hx
        exact ⟨length_outboundWords _ _, s.isSome_latchTimeout⟩
      selIsInFlight := by rw [hs.select_eq, Bool.and_true] }

/-! The step. -/

/-- An instruction that issues while BUSY = 0 keeps coherence. -/
theorem exec_coherent {i : Instr} {s t : State} (hs : s.Coherent) (hidle : s.busy = false) (h : exec i s = .next t) : t.Coherent := by
  cases hw : i.isWire with
  | true =>
    obtain ⟨op, vals, e⟩ := exec_wire hw s
    rw [e] at h
    cases h
    exact hs.commitCommand op vals
  | false =>
    cases i with
    | readBits buf width => exact execReadBits_coherent hs h
    | writeBits buf width => exact execWriteBits_coherent hs h
    | encodeCommand => exact execEncode_coherent hs h
    | decodeCommand buf => exact execDecode_coherent hs h
    | initBridge => exact execInit_coherent hs hidle h
    | beginBus => exact execBegin_coherent hs h
    | stageFrame => exact execStage_coherent hs h
    | transferFrame => exact execTransfer_coherent hs h
    | tearDown => exact execTearDown_coherent hs hidle h
    | _ => cases hw

/-- Settles O48, by what a step can be: each agent's turn, and each operation that issues, keeps coherence. -/
theorem stepKeepsCoherence : Obligations.StepKeepsCoherence := by
  intro s t hs h
  obtain ⟨env, rfl⟩ | ⟨-, v, env, rfl⟩ | ⟨off, v, env, rfl⟩ | ⟨o, ts, -, rfl⟩ | ⟨-, rfl⟩ | ⟨-, env, rfl⟩ | ⟨i, env, hidle, -, -, he⟩ :=
    step_cases h
  · exact hs.withHost s.held env
  · exact hs.withHost (some v) env
  · exact (hs.withHost s.held env).hostWrite off v
  · exact (hs.withHost s.held _).busStep o
  · exact (hs.withHost s.held _).resetStep
  · exact (hs.withHost none env).raise .illegalOp
  · exact exec_coherent (hs.withHost none env) hidle he

end Sys2Proof.Machine
end

section
/-! The register window (spec/10_state.md R22 to R50, R59): which register an offset reaches, and what a read gives after a write to the
same register and to another one. -/

namespace Sys2Proof.Machine

/-! The offsets. -/

/-- Offset bits [1:0] are ignored (R22). -/
theorem regAt_roundDown (off : BitVec 8) : regAt (BitVec.ofNat 8 (off.toNat - off.toNat % 4)) = regAt off := by
  have hlt := off.isLt
  have hword : (BitVec.ofNat 8 (off.toNat - off.toNat % 4)).toNat / 4 = off.toNat / 4 := by
    rw [BitVec.toNat_ofNat]
    omega
  unfold regAt
  rw [hword]

/-- The four offsets of OPW. -/
theorem regAt_of_lt_four {off : BitVec 8} (h : off.toNat < 4) : regAt off = some .opw := by
  have hword : off.toNat / 4 = 0 := by omega
  unfold regAt
  rw [hword]
  rfl

/-- The reserved offsets (R23). -/
theorem regAt_reserved {off : BitVec 8} (h : 0x68 ≤ off.toNat) : regAt off = none := by
  obtain ⟨n, hword⟩ : ∃ n, off.toNat / 4 = n + 0x1A := ⟨off.toNat / 4 - 0x1A, by omega⟩
  unfold regAt
  rw [hword]
  rfl

/-- A read depends on the register its offset reaches only. -/
theorem State.hostRead_congr (s : State) {a b : BitVec 8} (h : regAt a = regAt b) : s.hostRead a = s.hostRead b := by
  unfold State.hostRead
  rw [h]

/-- So does a write. -/
theorem State.hostWrite_congr (s : State) {a b : BitVec 8} (h : regAt a = regAt b) (v : Word) : s.hostWrite a v = s.hostWrite b v := by
  unfold State.hostWrite
  rw [h]

theorem State.hostRead_of_regAt (s : State) {off : BitVec 8} {r : Reg} (h : regAt off = some r) : s.hostRead off = s.readRegister r := by
  unfold State.hostRead
  rw [h]

theorem State.hostRead_of_reserved (s : State) {off : BitVec 8} (h : regAt off = none) : s.hostRead off = 0 := by
  unfold State.hostRead
  rw [h]

theorem State.hostWrite_of_regAt (s : State) {off : BitVec 8} {r : Reg} (h : regAt off = some r) (v : Word) :
    s.hostWrite off v = s.writeRegister v r := by
  unfold State.hostWrite
  rw [h]

theorem State.hostWrite_of_reserved (s : State) {off : BitVec 8} (h : regAt off = none) (v : Word) : s.hostWrite off v = s := by
  unfold State.hostWrite
  rw [h]

/-- Settles O45: a read and a write depend on the register the offset reaches, and from 0x68 on that is none. -/
theorem offsetsRoundDownAndTheRestIsReserved : Obligations.OffsetsRoundDownAndTheRestIsReserved := by
  intro s off v
  have hround := (regAt_roundDown off).symm
  refine ⟨s.hostRead_congr hround, s.hostWrite_congr hround v, fun h => ?_⟩
  have hnone := regAt_reserved h
  exact ⟨s.hostRead_of_reserved hnone, s.hostWrite_of_reserved hnone v⟩

/-! The Master-only registers. -/

/-- What holds of the machine and of the machine after the write holds after a write to a Master-only register. -/
theorem State.onMaster_induction {P : State → Prop} {s t : State} (hs : P s) (ht : P t) : P (s.onMaster t) := by
  cases hr : s.build.role with
  | master => rwa [State.onMaster_master hr]
  | slave => rwa [State.onMaster_slave hr]

/-- On a Master, a Master-only register reads back what the write left in it. -/
theorem State.masterOnly_onMaster {w : Nat} {s t : State} (hr : s.build.role = .master) (hb : t.build = s.build) (x : State → BitVec w) :
    (s.onMaster t).masterOnly (x (s.onMaster t)) = x t := by
  rw [State.onMaster_master hr]
  exact State.masterOnly_master (by rw [hb, hr]) (x t)

/-- Settles O44: each of the five registers is behind `masterOnly` on reads and behind `onMaster` on writes. -/
theorem slaveMasterOnlyRegistersAreAbsent : Obligations.SlaveMasterOnlyRegistersAreAbsent := by
  intro s hr off hoff
  fin_cases hoff
  all_goals exact ⟨State.masterOnly_slave hr _, fun v => State.onMaster_slave hr _⟩

/-! A read after a write. -/

/-- A register of `w` bits keeps the written value modulo `2 ^ w`. -/
theorem setWidth_setWidth_word (v : Word) (w : Nat) : (v.setWidth w).setWidth 32 = BitVec.ofNat 32 (v.toNat % 2 ^ w) := by
  apply BitVec.eq_of_toNat_eq
  simp

/-- A write to one register leaves what every other one reads: it replaces one field, or none, and each register reads its own. The pair
of equal registers is the case that `h` excludes. -/
theorem State.readRegister_writeRegister_of_ne (s : State) (v : Word) {r r' : Reg} (h : r ≠ r') :
    (s.writeRegister v r).readRegister r' = s.readRegister r' := by
  cases r with
  | opw | status | result | encLen | ingressLen | capActive | param | paramCmax => rfl
  | timeout | cfgFreq | cfgSelpin | cfgBindAddr | cfgBindPort =>
    refine State.onMaster_induction (P := fun t => t.readRegister r' = s.readRegister r') rfl ?_
    cases r' <;> trivial
  | _ => cases r' <;> trivial

/-- A register write leaves the bridge state (R59). -/
@[simp] theorem State.hostWrite_bridge (s : State) (off : BitVec 8) (v : Word) : (s.hostWrite off v).bridge = s.bridge := by
  unfold State.hostWrite
  cases regAt off with
  | none => rfl
  | some r =>
    cases r with
    | timeout | cfgFreq | cfgSelpin | cfgBindAddr | cfgBindPort =>
      exact State.onMaster_induction (P := fun t => t.bridge = s.bridge) rfl rfl
    | _ => rfl

/-- Settles O41: reserved offsets read 0 and ignore writes, and two registers at different offsets do not overlap. -/
theorem registerWritesLeaveTheOthers : Obligations.RegisterWritesLeaveTheOthers := by
  intro s a b v hab
  cases ha : regAt a with
  | none => rw [s.hostWrite_of_reserved ha]
  | some r =>
    cases hb : regAt b with
    | none => rw [State.hostRead_of_reserved _ hb, State.hostRead_of_reserved _ hb]
    | some r' =>
      have hne : r ≠ r' := fun e => hab (by rw [ha, hb, e])
      rw [s.hostWrite_of_regAt ha, State.hostRead_of_regAt _ hb, State.hostRead_of_regAt _ hb, s.readRegister_writeRegister_of_ne v hne]

/-- Settles O40: a full-width register is a field that the write replaces, a narrower one drops the bits above its width, and on a
Master `onMaster` and `masterOnly` do nothing. -/
theorem registersReadBackWhatTheyStore : Obligations.RegistersReadBackWhatTheyStore := by
  intro s v
  refine ⟨?_, setWidth_setWidth_word v 6, setWidth_setWidth_word v 2, fun hr => ⟨?_, ?_, ?_⟩, ?_⟩
  · intro off hoff
    fin_cases hoff <;> rfl
  · intro off hoff
    fin_cases hoff
    · exact State.masterOnly_onMaster (t := { s with timeout := v }) hr rfl State.timeout
    · exact State.masterOnly_onMaster (t := { s with cfgFreq := v }) hr rfl State.cfgFreq
    · exact State.masterOnly_onMaster (t := { s with cfgBindAddr := v }) hr rfl State.cfgBindAddr
  · exact (State.masterOnly_onMaster (t := { s with cfgSelpin := v.setWidth 8 }) hr rfl fun t => t.cfgSelpin.setWidth 32).trans
      (setWidth_setWidth_word v 8)
  · exact (State.masterOnly_onMaster (t := { s with cfgBindPort := v.setWidth 16 }) hr rfl fun t => t.cfgBindPort.setWidth 32).trans
      (setWidth_setWidth_word v 16)
  · intro off hoff
    fin_cases hoff <;> rfl

/-! CFG_CAP. -/

/-- C_MAX fits a register (R6, R50). -/
theorem toNat_ofNat_of_le_cMax {b : Build} {n : Nat} (h : n ≤ b.cMax) : (BitVec.ofNat 32 n).toNat = n := by
  obtain ⟨-, -, hmax⟩ := cMax_legal b
  rw [BitVec.toNat_ofNat]
  omega

/-- An Uninitialized bridge takes C from CFG_CAP at INIT (R41, R182). -/
theorem exec_initBridge_capacity {s t : State} (hb : s.bridge = .uninitialized) (h : exec .initBridge s = .next t) :
    t.capacity = s.cfgCap.toNat := by
  obtain ⟨hne, -⟩ | ⟨-, rfl⟩ := execInit_cases h
  · exact absurd hb hne
  · rfl

/-- Settles O43: a write to CFG_CAP stores `legalCapacity`, reset stores C_MAX, and INIT latches the register. -/
theorem cfgCapHoldsLegalCapacities : Obligations.CfgCapHoldsLegalCapacities := by
  intro s v
  refine ⟨⟨?_, legalCapacity_legal s.build v⟩, toNat_ofNat_of_le_cMax le_rfl, fun hb => ?_⟩
  · exact toNat_ofNat_of_le_cMax (min_le_left _ _)
  · obtain ⟨t, ht⟩ := exec_answers .initBridge s
    exact ⟨t, ht, exec_initBridge_capacity hb ht⟩

/-! STATUS. -/

/-- A field in front of another one counts with the weight of the bits behind it. -/
theorem toNat_append_eq_add {m n : Nat} (x : BitVec m) (y : BitVec n) : (x ++ y).toNat = x.toNat * 2 ^ n + y.toNat := by
  rw [BitVec.toNat_append, ← Nat.shiftLeft_add_eq_or_of_lt y.isLt, Nat.shiftLeft_eq]

/-- The STATUS word as a number: each field at its place (R26). -/
theorem statusWord_toNat (s : State) : (statusWord s).toNat =
    (statusCode s.err).toNat + 16 * s.busy.toNat + 32 * (bridgeCode s.bridge).toNat + 128 * s.sel.toNat + 256 * s.staged.toNat := by
  simp only [statusWord, toNat_append_eq_add, BitVec.toNat_ofBool, BitVec.toNat_ofNat]
  omega

/-- ERR is at most 9 (R27). -/
theorem statusCode_le (e : Status) : (statusCode e).toNat ≤ 9 := by cases e <;> decide

/-- STATE is at most 2 (R29). -/
theorem bridgeCode_le (b : Bridge) : (bridgeCode b).toNat ≤ 2 := by cases b <;> decide

/-- STATUS.ERR. -/
theorem statusWord_err (s : State) : (statusWord s).toNat % 16 = (statusCode s.err).toNat := by
  have := statusCode_le s.err
  rw [statusWord_toNat]
  omega

/-- STATUS.STATE. -/
theorem statusWord_state (s : State) : (statusWord s).toNat / 32 % 4 = (bridgeCode s.bridge).toNat := by
  have := statusCode_le s.err
  have := bridgeCode_le s.bridge
  have := Bool.toNat_le s.busy
  rw [statusWord_toNat]
  omega

/-- Bits [31:9] are 0. -/
theorem statusWord_lt (s : State) : (statusWord s).toNat < 2 ^ 9 := by
  have := statusCode_le s.err
  have := bridgeCode_le s.bridge
  have := Bool.toNat_le s.busy
  have := Bool.toNat_le s.sel
  have := Bool.toNat_le s.staged
  rw [statusWord_toNat]
  omega

theorem statusWord_busy (s : State) : (statusWord s).getLsbD 4 = s.busy := by
  simp only [statusWord, BitVec.getLsbD_append]
  simp

theorem statusWord_sel (s : State) : (statusWord s).getLsbD 7 = s.sel := by
  simp only [statusWord, BitVec.getLsbD_append]
  simp

theorem statusWord_staged (s : State) : (statusWord s).getLsbD 8 = s.staged := by
  simp only [statusWord, BitVec.getLsbD_append]
  simp

/-- Settles O46, field by field; the numbers themselves are the tables of `statusCode` and `bridgeCode`. -/
theorem statusWordHoldsItsFields : Obligations.StatusWordHoldsItsFields := by
  intro s
  have herr := statusWord_err s
  have hstate := statusWord_state s
  refine ⟨herr.trans ?_, herr.trans_le (statusCode_le _), statusWord_busy s, hstate.trans ?_, hstate.trans_le (bridgeCode_le _), statusWord_sel s,
    statusWord_staged s, statusWord_lt s⟩
  · cases s.err <;> rfl
  · cases s.bridge <;> rfl

end Sys2Proof.Machine
end

section
/-! The host's turn (spec/00_scope.md R15; spec/10_state.md R23, R25; spec/30_encoding.md R99), and who writes RESULT (R35). -/

namespace Sys2Proof.Machine

/-! The host's turn. -/

/-- A step that issues nothing. -/
theorem step_of_quiet {s t : State} (h : s.nextMove = .quiet t) : step s = .next t := by
  unfold step
  rw [h]

/-- A step that issues a word that decodes to an operation. -/
theorem step_of_issue_ok {s t : State} {v : Word} {i : Instr} (h : s.nextMove = .issue v t) (hd : decodeOpw v = .ok i) : step s = exec i t := by
  simp only [step, h, hd]

/-- A step that issues any other word (R87). -/
theorem step_of_issue_illegal {s t : State} {v : Word} {why : DecodeError} (h : s.nextMove = .issue v t) (hd : decodeOpw v = .illegal why) :
    step s = .next (t.raise .illegalOp) := by
  simp only [step, h, hd]

/-- The schedule has moved on by the turn that was taken. -/
theorem State.afterTurn_of_turns {s : State} {turn : Turn} {ts : List Turn} (h : s.env.turns = turn :: ts) :
    s.afterTurn = { s with env := { s.env with turns := ts } } := by
  simp only [State.afterTurn, h, List.tail_cons]

/-- On a host turn the host moves. -/
theorem State.nextMove_of_host {s : State} {ts : List Turn} (h : s.env.turns = .host :: ts) : s.nextMove = s.afterTurn.hostMove := by
  simp only [State.nextMove, h]

/-- With no turn scheduled, TBX waits (R262). -/
theorem State.nextMove_of_nil {s : State} (h : s.env.turns = []) : s.nextMove = .quiet s := by
  simp only [State.nextMove, h]

/-- With BUSY = 0 no outcome is enabled, and a bus turn passes (R197). -/
theorem State.nextMove_of_bus_idle {s : State} {o : Completion} {ts : List Turn} (h : s.env.turns = .bus o :: ts) (hbusy : s.busy = false) :
    s.nextMove = .quiet s.afterTurn := by
  have hdisabled : s.afterTurn.completionEnabled o = false := by
    cases o <;> simp only [State.completionEnabled, State.afterTurn_busy, hbusy, Bool.false_and]
  simp only [State.nextMove, h, State.busStep, hdisabled, Bool.false_eq_true, if_false]

/-- On a reset turn the machine is reset (R260). -/
theorem State.nextMove_of_reset {s : State} {ts : List Turn} (h : s.env.turns = .reset :: ts) : s.nextMove = .quiet s.afterTurn.resetStep := by
  simp only [State.nextMove, h]

/-- With no write held, the host takes the line of its program that it stands at (R99). -/
theorem State.hostMove_of_line {s : State} {l : HostLine} (hheld : s.held = none) (hl : s.env.program[s.env.line]? = some l) :
    s.hostMove = s.hostLineMove l := by
  simp only [State.hostMove, hheld, hl]

/-- While its write is held, the host does nothing else (R264). -/
theorem State.hostMove_of_held {s : State} {v : Word} (hheld : s.held = some v) (hbusy : s.busy = true) : s.hostMove = .quiet s := by
  simp only [State.hostMove, hheld, hbusy, if_true]

/-- A write to OPW while BUSY = 1 is held (R25). -/
theorem State.hostWriteMove_of_busy {s : State} {off : BitVec 8} (hoff : regAt off = some .opw) (hbusy : s.busy = true) (v : Word) :
    s.hostWriteMove off v = .quiet { s with held := some v } := by
  simp only [State.hostWriteMove, hoff, hbusy, if_true]

/-- The step of a host turn that takes a program line, where that line issues nothing. -/
theorem step_of_line {s t : State} {ts : List Turn} {l : HostLine} (hts : s.env.turns = .host :: ts) (hheld : s.held = none)
    (hl : s.env.program[s.env.line]? = some l) (hmove : s.afterTurn.hostLineMove l = .quiet t) : step s = .next t := by
  refine step_of_quiet ?_
  rw [State.nextMove_of_host hts, State.hostMove_of_line (s := s.afterTurn) hheld hl, hmove]

/-- Settles O36: the write is held, a host turn passes while it is held, and a reset drops it. -/
theorem busyHoldsTheOpwWrite : Obligations.BusyHoldsTheOpwWrite := by
  intro s ts v hbusy
  refine ⟨fun off hoff hts hheld hl => ?_, fun hts hheld => ?_, fun hts _ => ?_⟩
  · have hhold := State.hostWriteMove_of_busy (s := s.afterTurn.atLine (s.env.line + 1)) (regAt_of_lt_four hoff) hbusy v
    refine step_of_line hts hheld hl (hhold.trans ?_)
    rw [State.afterTurn_of_turns hts]
    rfl
  · have hpass : s.afterTurn.hostMove = .quiet s.afterTurn := State.hostMove_of_held hheld hbusy
    rw [← State.afterTurn_of_turns hts]
    exact step_of_quiet ((State.nextMove_of_host hts).trans hpass)
  · exact ⟨_, step_of_quiet (State.nextMove_of_reset hts), rfl, rfl⟩

/-- Settles O39: each line is one host turn, and what it reads does not depend on the schedule. -/
theorem hostReadsChangeNothing : Obligations.HostReadsChangeNothing := by
  intro s ts off hts hheld
  have hafter := State.afterTurn_of_turns hts
  have hread := s.hostRead_env off s.held { s.env with turns := ts }
  refine ⟨fun hl => ?_, fun hi lo value target hl => ?_, fun hi lo value target hl => ?_⟩
  · refine step_of_line hts hheld hl ?_
    simp only [State.hostLineMove, State.seen, State.atLine, hafter, hread]
  · refine step_of_line hts hheld hl ?_
    simp only [State.hostLineMove, State.seen, State.atLine, hafter, hread]
  · refine step_of_line hts hheld hl ?_
    simp only [State.hostLineMove, State.seen, State.atLine, hafter, hread, ne_eq, ite_not]

/-! RESULT. -/

/-- A host write leaves RESULT: it is read-only, and a write to another register leaves what it reads (R59). -/
theorem State.hostWrite_result (s : State) (off : BitVec 8) (v : Word) : (s.hostWrite off v).result = s.result := by
  unfold State.hostWrite
  cases regAt off with
  | none => rfl
  | some r =>
    by_cases hr : r = .result
    · subst hr
      rfl
    · exact s.readRegister_writeRegister_of_ne v hr

theorem State.busStep_result (s : State) (o : Completion) : (s.busStep o).result = s.result := by
  obtain ⟨-, e⟩ | ⟨-, _, -, e⟩ | ⟨-, -, e⟩ := s.busStep_cases o <;> rw [e] <;> rfl

/-- An instruction leaves RESULT, unless it is a READBITS that passes its checks (R35, R118). -/
theorem exec_result {i : Instr} {s t : State} (h : exec i s = .next t) :
    t.result = s.result ∨
      ∃ buf width, i = .readBits buf width ∧ s.sliceInBounds buf width ∧ t.result = bitReadCore (s.buffer buf) s.offset.toNat width.toNat := by
  cases hw : i.isWire with
  | true =>
    obtain ⟨op, vals, e⟩ := exec_wire hw s
    rw [e] at h
    cases h
    exact .inl rfl
  | false =>
    cases i with
    | readBits buf width =>
      obtain ⟨_, -, rfl⟩ | ⟨hin, rfl⟩ := execReadBits_cases h
      · exact .inl rfl
      · exact .inr ⟨buf, width, rfl, hin, rfl⟩
    | writeBits buf width =>
      obtain ⟨-, rfl⟩ | ⟨-, _, -, rfl⟩ | ⟨-, -, rfl⟩ := execWriteBits_cases h
      · exact .inl rfl
      · exact .inl rfl
      · exact .inl (by rw [State.raise_result, State.setBuffer_result])
    | encodeCommand => obtain ⟨-, rfl⟩ | ⟨_, -, rfl⟩ := execEncode_cases h <;> exact .inl rfl
    | decodeCommand buf => obtain ⟨_, -, rfl⟩ | ⟨_, _, rfl⟩ := execDecode_cases h <;> exact .inl rfl
    | initBridge => obtain ⟨-, rfl⟩ | ⟨-, rfl⟩ := execInit_cases h <;> exact .inl rfl
    | beginBus => obtain ⟨-, rfl⟩ | ⟨-, rfl⟩ | ⟨-, rfl⟩ := execBegin_cases h <;> exact .inl rfl
    | stageFrame => obtain ⟨-, rfl⟩ | ⟨-, _, _, -, rfl | ⟨-, rfl⟩ | ⟨-, -, rfl⟩⟩ := execStage_cases h <;> exact .inl rfl
    | transferFrame => obtain ⟨-, rfl⟩ | ⟨-, rfl⟩ := execTransfer_cases h <;> exact .inl rfl
    | tearDown => obtain ⟨_, rfl⟩ := execTearDown_cases h; exact .inl rfl
    | _ => cases hw

/-- Settles O52, by what a step can be: only a reset and an instruction reach RESULT. -/
theorem onlyReadBitsWritesResult : Obligations.OnlyReadBitsWritesResult := by
  intro s t h hne
  obtain ⟨env, rfl⟩ | ⟨-, v, env, rfl⟩ | ⟨off, v, env, rfl⟩ | ⟨o, ts, -, rfl⟩ | ⟨hts, rfl⟩ | ⟨-, env, rfl⟩ | ⟨i, env, -, -, hi, he⟩ :=
    step_cases h
  · exact absurd rfl hne
  · exact absurd rfl hne
  · exact absurd (State.hostWrite_result _ off v) hne
  · exact absurd (State.busStep_result _ o) hne
  · exact .inr ⟨hts, rfl⟩
  · exact absurd rfl hne
  · obtain hsame | ⟨buf, width, rfl, hin, hresult⟩ := exec_result he
    · exact absurd hsame hne
    · exact .inl ⟨buf, width, hi, hin, hresult⟩

end Sys2Proof.Machine
end

section
/-! What an Uninitialized bridge hides (spec/10_state.md R52 to R54; spec/70_reset_and_hazards.md R260, U11): SEND, RECV and LATCHED_CFG
are seen by no host read and by no operation, and INIT replaces them. -/

namespace Sys2Proof.Machine

/-- The machine with other contents of the frame pair and of LATCHED_CFG. -/
def State.withFrames (s : State) (send recv : Memory) (latched : LatchedCfg) : State :=
  { s with send := send, recv := recv, latched := latched }

/-- The same for what a turn comes to. -/
def Move.withFrames (send recv : Memory) (latched : LatchedCfg) : Move → Move
  | .quiet t => .quiet (t.withFrames send recv latched)
  | .issue v t => .issue v (t.withFrames send recv latched)

/-- Two outcomes differ in the frame pair and LATCHED_CFG alone, and where the bridge is not Uninitialized not at all. -/
def FramesHidden (r r' : Result) : Prop :=
  ∃ t t', r = .next t ∧ r' = .next t' ∧ t' = { t with send := t'.send, recv := t'.recv, latched := t'.latched } ∧
    (t.bridge ≠ .uninitialized → t' = t)

/-- Equal outcomes hide everything. -/
theorem FramesHidden.of_eq {r r' : Result} {t : State} (h : r = .next t) (h' : r' = .next t) : FramesHidden r r' :=
  ⟨t, t, h, h', rfl, fun _ => rfl⟩

/-- In Uninitialized the frame pair and LATCHED_CFG may differ. -/
theorem FramesHidden.of_uninitialized {t t' : State} (hsame : t' = { t with send := t'.send, recv := t'.recv, latched := t'.latched })
    (h : t.bridge = .uninitialized) : FramesHidden (.next t) (.next t') :=
  ⟨t, t', rfl, rfl, hsame, fun hne => absurd h hne⟩

section
variable {s : State} (send recv : Memory) (latched : LatchedCfg)

/-! The host. -/

/-- No register shows the frame pair, and CAP_ACTIVE reads 0 in Uninitialized (R48). -/
theorem State.hostRead_withFrames (h : s.bridge = .uninitialized) (off : BitVec 8) :
    (s.withFrames send recv latched).hostRead off = s.hostRead off := by
  unfold State.hostRead
  cases regAt off with
  | none => rfl
  | some r =>
    cases r with
    | capActive => simp only [State.readRegister, State.capActive, State.withFrames, h]
    | _ => rfl

/-- No register write reaches the frame pair or LATCHED_CFG, nor depends on them. -/
theorem State.writeRegister_withFrames (v : Word) (r : Reg) :
    (s.withFrames send recv latched).writeRegister v r = (s.writeRegister v r).withFrames send recv latched := by
  cases r with
  | timeout | cfgFreq | cfgSelpin | cfgBindAddr | cfgBindPort =>
    simp only [State.writeRegister, State.onMaster, State.withFrames]
    cases s.build.role <;> rfl
  | _ => rfl

theorem State.hostWrite_withFrames (off : BitVec 8) (v : Word) :
    (s.withFrames send recv latched).hostWrite off v = (s.hostWrite off v).withFrames send recv latched := by
  unfold State.hostWrite
  cases regAt off with
  | none => rfl
  | some r => exact State.writeRegister_withFrames send recv latched v r

theorem State.hostWriteMove_withFrames (off : BitVec 8) (v : Word) :
    (s.withFrames send recv latched).hostWriteMove off v = (s.hostWriteMove off v).withFrames send recv latched := by
  unfold State.hostWriteMove
  split
  · cases hb : s.busy <;> simp [State.withFrames, Move.withFrames, hb]
  · rw [State.hostWrite_withFrames]
    rfl

/-- The host's line does not see the frame pair. -/
theorem State.hostLineMove_withFrames (h : s.bridge = .uninitialized) (l : HostLine) :
    (s.withFrames send recv latched).hostLineMove l = (s.hostLineMove l).withFrames send recv latched := by
  have hread := State.hostRead_withFrames send recv latched h
  cases l with
  | wr off v => exact State.hostWriteMove_withFrames (s := s.atLine (s.env.line + 1)) send recv latched off v
  | rd off => simp only [State.hostLineMove, State.seen, hread]; rfl
  | beq off hi lo value target => simp only [State.hostLineMove, State.seen, hread]; rfl
  | bne off hi lo value target => simp only [State.hostLineMove, State.seen, hread]; rfl
  | jmp target => rfl
  | halt => rfl

/-- Nor does the host's turn. -/
theorem State.hostMove_withFrames (h : s.bridge = .uninitialized) :
    (s.withFrames send recv latched).hostMove = s.hostMove.withFrames send recv latched := by
  cases hheld : s.held with
  | some v => cases hb : s.busy <;> simp [State.hostMove, State.withFrames, Move.withFrames, hheld, hb]
  | none =>
    cases hl : s.env.program[s.env.line]? with
    | none => simp [State.hostMove, State.withFrames, Move.withFrames, hheld, hl]
    | some l =>
      rw [State.hostMove_of_line hheld hl, ← State.hostLineMove_withFrames send recv latched h l]
      exact State.hostMove_of_line hheld hl

/-- A host turn leaves the bridge state: only an operation moves it (R181). -/
theorem State.hostMove_quiet_bridge {t : State} (h : s.hostMove = .quiet t) : t.bridge = s.bridge := by
  obtain ⟨env, rfl⟩ | ⟨-, v, env, rfl⟩ | ⟨off, v, env, rfl⟩ := State.hostMove_quiet h
  · rfl
  · rfl
  · exact State.hostWrite_bridge _ off v

/-! The operations. -/

/-- In Uninitialized ResolveBuffer answers CMD or NotReady (R120). -/
theorem State.resolveBuffer_withFrames (h : s.bridge = .uninitialized) (buf : Buffer) :
    (s.withFrames send recv latched).resolveBuffer buf = s.resolveBuffer buf := by
  cases buf <;> simp [State.resolveBuffer, State.withFrames, h]

theorem State.sliceOperands_withFrames (h : s.bridge = .uninitialized) (buf : Buffer) (width : BitVec 6) :
    (s.withFrames send recv latched).sliceOperands buf width = s.sliceOperands buf width := by
  unfold State.sliceOperands
  rw [State.resolveBuffer_withFrames send recv latched h]
  rfl

/-- What a wire command commits is its own, whatever the state. -/
theorem exec_wire_commits {i : Instr} (hi : i.isWire = true) : ∃ op vals, ∀ s, exec i s = .next (s.commitCommand op vals) := by
  cases i <;> simp only [Instr.isWire, Bool.false_eq_true] at hi <;> exact ⟨_, _, fun _ => rfl⟩

theorem execReadBits_withFrames (h : s.bridge = .uninitialized) (buf : Buffer) (width : BitVec 6) :
    FramesHidden (execReadBits buf width s) (execReadBits buf width (s.withFrames send recv latched)) := by
  unfold execReadBits
  rw [State.sliceOperands_withFrames send recv latched h]
  cases s.sliceOperands buf width <;> exact .of_uninitialized rfl h

theorem execWriteBits_withFrames (h : s.bridge = .uninitialized) (buf : Buffer) (width : BitVec 6) :
    FramesHidden (execWriteBits buf width s) (execWriteBits buf width (s.withFrames send recv latched)) := by
  cases buf with
  | recv => exact .of_uninitialized rfl h
  | cmd =>
    unfold execWriteBits
    simp only [State.sliceOperands_withFrames send recv latched h]
    cases s.sliceOperands .cmd width <;> exact .of_uninitialized rfl h
  | send =>
    have hs : s.sliceOperands .send width = .error .notReady := by
      simp [State.sliceOperands, State.resolveBuffer, h]
    unfold execWriteBits
    simp only [State.sliceOperands_withFrames send recv latched h, hs]
    exact .of_uninitialized rfl h

theorem execEncode_withFrames (h : s.bridge = .uninitialized) :
    FramesHidden (execEncode s) (execEncode (s.withFrames send recv latched)) := by
  have hop : (s.withFrames send recv latched).opcode = s.opcode := rfl
  unfold execEncode
  rw [hop]
  cases schemaOf s.opcode <;> exact .of_uninitialized rfl h

theorem execDecode_withFrames (h : s.bridge = .uninitialized) (buf : Buffer) :
    FramesHidden (execDecode buf s) (execDecode buf (s.withFrames send recv latched)) := by
  have hlen : (s.withFrames send recv latched).len = s.len := rfl
  unfold execDecode
  rw [State.resolveBuffer_withFrames send recv latched h, hlen]
  cases s.resolveBuffer buf with
  | error st => exact .of_uninitialized rfl h
  | ok b =>
    dsimp only
    split
    · exact .of_uninitialized rfl h
    · split
      · exact .of_uninitialized rfl h
      · split
        · exact .of_uninitialized rfl h
        · split <;> exact .of_uninitialized rfl h

/-- INIT zeroes all C_MAX bytes of the frame pair and latches the configuration anew, so that nothing is left of what they held (R182). -/
theorem execInit_withFrames (h : s.bridge = .uninitialized) (hsend : s.send.within s.build.cMax = true)
    (hrecv : s.recv.within s.build.cMax = true) (hsend' : send.within s.build.cMax = true) (hrecv' : recv.within s.build.cMax = true) :
    execInit (s.withFrames send recv latched) = execInit s := by
  simp only [execInit, State.withFrames, h, Memory.zeroFill_of_within, hsend, hrecv, hsend', hrecv']
  rfl

/-- While Uninitialized, an instruction sees nothing of the frame pair and LATCHED_CFG. -/
theorem exec_withFrames (h : s.bridge = .uninitialized) (hsend : s.send.within s.build.cMax = true)
    (hrecv : s.recv.within s.build.cMax = true) (hsend' : send.within s.build.cMax = true) (hrecv' : recv.within s.build.cMax = true)
    (i : Instr) : FramesHidden (exec i s) (exec i (s.withFrames send recv latched)) := by
  have hb : (s.withFrames send recv latched).bridge = .uninitialized := h
  cases hw : i.isWire with
  | true =>
    obtain ⟨op, vals, e⟩ := exec_wire_commits hw
    rw [e, e]
    exact .of_uninitialized rfl h
  | false =>
    cases i with
    | readBits buf width => exact execReadBits_withFrames send recv latched h buf width
    | writeBits buf width => exact execWriteBits_withFrames send recv latched h buf width
    | encodeCommand => exact execEncode_withFrames send recv latched h
    | decodeCommand buf => exact execDecode_withFrames send recv latched h buf
    | initBridge =>
      obtain ⟨t, ht⟩ := exec_answers .initBridge s
      exact .of_eq ht ((execInit_withFrames send recv latched h hsend hrecv hsend' hrecv').trans ht)
    | beginBus =>
      simp only [exec, execBegin, hb, h]
      exact .of_uninitialized rfl h
    | stageFrame =>
      simp only [exec, execStage, hb, h]
      exact .of_uninitialized rfl h
    | transferFrame =>
      simp only [exec, execTransfer, hb, h]
      exact .of_uninitialized rfl h
    | tearDown =>
      simp only [exec, execTearDown, hb, h]
      exact .of_uninitialized rfl rfl
    | _ => cases hw

/-! The step. -/

/-- A host turn comes to the same, whatever the frame pair holds. -/
theorem State.nextMove_withFrames_of_host {ts : List Turn} (hts : s.env.turns = .host :: ts) (h : s.bridge = .uninitialized) :
    (s.withFrames send recv latched).nextMove = s.nextMove.withFrames send recv latched := by
  rw [State.nextMove_of_host hts, State.nextMove_of_host (s := s.withFrames send recv latched) hts]
  exact State.hostMove_withFrames (s := s.afterTurn) send recv latched h

/-- A host turn while Uninitialized: the host moves, or an instruction issues, or an illegal word. -/
theorem step_withFrames_of_host {ts : List Turn} (hts : s.env.turns = .host :: ts) (h : s.bridge = .uninitialized)
    (hsend : s.send.within s.build.cMax = true) (hrecv : s.recv.within s.build.cMax = true) (hsend' : send.within s.build.cMax = true)
    (hrecv' : recv.within s.build.cMax = true) : FramesHidden (step s) (step (s.withFrames send recv latched)) := by
  have hmove' := State.nextMove_withFrames_of_host send recv latched hts h
  cases hmove : s.nextMove with
  | quiet t =>
    rw [hmove] at hmove'
    rw [step_of_quiet hmove, step_of_quiet hmove']
    rw [State.nextMove_of_host hts] at hmove
    exact .of_uninitialized rfl ((State.hostMove_quiet_bridge hmove).trans h)
  | issue v u =>
    obtain ⟨-, env, rfl⟩ := State.hostMove_issue ((State.nextMove_of_host hts).symm.trans hmove)
    rw [hmove] at hmove'
    cases hd : decodeOpw v with
    | ok i =>
      rw [step_of_issue_ok hmove hd, step_of_issue_ok hmove' hd]
      exact exec_withFrames (s := { s.afterTurn with held := none, env := env }) send recv latched h hsend hrecv hsend' hrecv' i
    | illegal why =>
      rw [step_of_issue_illegal hmove hd, step_of_issue_illegal hmove' hd]
      exact .of_uninitialized rfl h

/-- A step with BUSY = 0 while Uninitialized, turn by turn: waiting, a host turn, a bus turn that passes, and reset. -/
theorem step_withFrames (h : s.bridge = .uninitialized) (hbusy : s.busy = false) (hsend : s.send.within s.build.cMax = true)
    (hrecv : s.recv.within s.build.cMax = true) (hsend' : send.within s.build.cMax = true) (hrecv' : recv.within s.build.cMax = true) :
    FramesHidden (step s) (step (s.withFrames send recv latched)) := by
  -- Neither the schedule nor BUSY tells the two machines apart.
  let s' := s.withFrames send recv latched
  cases hts : s.env.turns with
  | nil =>
    rw [step_of_quiet (State.nextMove_of_nil hts), step_of_quiet (State.nextMove_of_nil (s := s') hts)]
    exact .of_uninitialized rfl h
  | cons turn ts =>
    cases turn with
    | host => exact step_withFrames_of_host send recv latched hts h hsend hrecv hsend' hrecv'
    | bus o =>
      rw [step_of_quiet (State.nextMove_of_bus_idle hts hbusy), step_of_quiet (State.nextMove_of_bus_idle (s := s') hts hbusy)]
      exact .of_uninitialized rfl h
    | reset =>
      rw [step_of_quiet (State.nextMove_of_reset hts), step_of_quiet (State.nextMove_of_reset (s := s') hts)]
      exact .of_uninitialized rfl rfl

end

/-- Settles O56: the second machine is the first with another frame pair and LATCHED_CFG. -/
theorem uninitializedHidesTheFramePair : Obligations.UninitializedHidesTheFramePair := by
  intro s s' hs' h hbusy hsend hrecv hsend' hrecv'
  have hother : s.withFrames s'.send s'.recv s'.latched = s' := hs'.symm
  have hhidden := step_withFrames s'.send s'.recv s'.latched h hbusy hsend hrecv hsend' hrecv'
  rwa [hother] at hhidden

end Sys2Proof.Machine
end

section
/-! The write columns of the buffers (spec/20_memory.md R63), and what the end of an operation writes (spec/20_memory.md R72;
spec/60_exceptions.md R231, R232). -/

namespace Sys2Proof.Machine

/-! Who writes which buffer. -/

/-- The operations in the write column of a buffer (R63). -/
def WritesBuffer (i : Instr) : Buffer → Prop
  | .cmd => i = .encodeCommand ∨ ∃ width, i = .writeBits .cmd width
  | .send => i = .initBridge ∨ i = .stageFrame ∨ ∃ width, i = .writeBits .send width
  | .recv => i = .initBridge

/-- No register write reaches a buffer. -/
theorem State.hostWrite_buffer (s : State) (off : BitVec 8) (v : Word) (buf : Buffer) : (s.hostWrite off v).buffer buf = s.buffer buf := by
  unfold State.hostWrite
  cases regAt off with
  | none => rfl
  | some r =>
    cases r with
    | timeout | cfgFreq | cfgSelpin | cfgBindAddr | cfgBindPort =>
      exact State.onMaster_induction (P := fun u => u.buffer buf = s.buffer buf) rfl rfl
    | _ => rfl

/-- A bus turn writes RECV alone, and only with an outcome that is enabled (R198, R199). -/
theorem State.busStep_buffer (s : State) (o : Completion) (buf : Buffer) :
    (s.busStep o).buffer buf = s.buffer buf ∨ (buf = .recv ∧ s.completionEnabled o = true) := by
  obtain ⟨-, e⟩ | ⟨hen, _, -, e⟩ | ⟨hen, -, e⟩ := s.busStep_cases o <;> rw [e]
  · exact .inl rfl
  · cases buf with
    | recv => exact .inr ⟨rfl, hen⟩
    | cmd | send => exact .inl rfl
  · cases buf with
    | recv => exact .inr ⟨rfl, hen⟩
    | cmd | send => exact .inl rfl

/-- Replacing the contents of one buffer leaves the others. -/
theorem State.setBuffer_buffer_of_ne (s : State) {buf buf' : Buffer} (m : Memory) (h : buf' ≠ buf) :
    (s.setBuffer buf m).buffer buf' = s.buffer buf' := by
  cases buf with
  | cmd => cases buf' with
    | cmd => exact absurd rfl h
    | send | recv => rfl
  | send => cases buf' with
    | send => exact absurd rfl h
    | cmd | recv => rfl
  | recv => cases buf' with
    | recv => exact absurd rfl h
    | cmd | send => rfl

/-- WRITEBITS on a buffer that it can select stands in that buffer's write column (R89). -/
theorem writesBuffer_writeBits {buf : Buffer} (h : buf ≠ .recv) (width : BitVec 6) : WritesBuffer (.writeBits buf width) buf := by
  cases buf with
  | cmd => exact .inr ⟨width, rfl⟩
  | send => exact .inr (.inr ⟨width, rfl⟩)
  | recv => exact absurd rfl h

/-- An instruction leaves a buffer, unless it stands in its write column. -/
theorem exec_buffer {i : Instr} {s t : State} (h : exec i s = .next t) (buf : Buffer) : t.buffer buf = s.buffer buf ∨ WritesBuffer i buf := by
  cases hw : i.isWire with
  | true =>
    obtain ⟨op, vals, e⟩ := exec_wire hw s
    rw [e] at h
    cases h
    exact .inl rfl
  | false =>
    cases i with
    | readBits _ _ => obtain ⟨_, -, rfl⟩ | ⟨-, rfl⟩ := execReadBits_cases h <;> exact .inl rfl
    | writeBits sel width =>
      obtain ⟨-, rfl⟩ | ⟨-, _, -, rfl⟩ | ⟨hsel, -, rfl⟩ := execWriteBits_cases h
      · exact .inl rfl
      · exact .inl rfl
      · by_cases hb : buf = sel
        · exact .inr (hb ▸ writesBuffer_writeBits hsel width)
        · exact .inl (s.setBuffer_buffer_of_ne _ hb)
    | encodeCommand =>
      obtain ⟨-, rfl⟩ | ⟨_, -, rfl⟩ := execEncode_cases h
      · exact .inl rfl
      · cases buf with
        | cmd => exact .inr (.inl rfl)
        | send | recv => exact .inl rfl
    | decodeCommand _ => obtain ⟨_, -, rfl⟩ | ⟨_, _, rfl⟩ := execDecode_cases h <;> exact .inl rfl
    | initBridge =>
      obtain ⟨-, rfl⟩ | ⟨-, rfl⟩ := execInit_cases h
      · exact .inl rfl
      · cases buf with
        | cmd => exact .inl rfl
        | send => exact .inr (.inl rfl)
        | recv => exact .inr rfl
    | beginBus => obtain ⟨-, rfl⟩ | ⟨-, rfl⟩ | ⟨-, rfl⟩ := execBegin_cases h <;> exact .inl rfl
    | stageFrame =>
      obtain ⟨-, rfl⟩ | ⟨-, _, _, -, rfl | ⟨-, rfl⟩ | ⟨-, -, rfl⟩⟩ := execStage_cases h
      · exact .inl rfl
      · exact .inl rfl
      · exact .inl rfl
      · cases buf with
        | send => exact .inr (.inr (.inl rfl))
        | cmd | recv => exact .inl rfl
    | transferFrame => obtain ⟨-, rfl⟩ | ⟨-, rfl⟩ := execTransfer_cases h <;> exact .inl rfl
    | tearDown => obtain ⟨_, rfl⟩ := execTearDown_cases h; exact .inl rfl
    | _ => cases hw

/-- A step that changes a buffer issues an operation of its write column, or is the bus agent's on RECV, or a reset (R63). -/
theorem step_buffer {s t : State} (h : step s = .next t) {buf : Buffer} (hne : t.buffer buf ≠ s.buffer buf) :
    (∃ i, s.issuing = some i ∧ WritesBuffer i buf) ∨
      (buf = .recv ∧ ∃ o ts, s.env.turns = .bus o :: ts ∧ s.completionEnabled o = true) ∨ ∃ ts, s.env.turns = .reset :: ts := by
  obtain ⟨env, rfl⟩ | ⟨-, v, env, rfl⟩ | ⟨off, v, env, rfl⟩ | ⟨o, ts, hts, rfl⟩ | ⟨hts, rfl⟩ | ⟨-, env, rfl⟩ | ⟨i, env, -, -, hi, he⟩ :=
    step_cases h
  · exact absurd rfl hne
  · exact absurd rfl hne
  · exact absurd (State.hostWrite_buffer _ off v buf) hne
  · obtain hsame | ⟨hbuf, hen⟩ := s.afterTurn.busStep_buffer o buf
    · exact absurd hsame hne
    · exact .inr (.inl ⟨hbuf, o, ts, hts, hen⟩)
  · exact .inr (.inr hts)
  · exact absurd rfl hne
  · obtain hsame | hwrites := exec_buffer he buf
    · exact absurd hsame hne
    · exact .inl ⟨i, hi, hwrites⟩

/-- Settles O53: the write columns, read off for each of the three buffers. -/
theorem buffersHaveTheirWritersOnly : Obligations.BuffersHaveTheirWritersOnly := by
  intro s t h
  refine ⟨fun hne => ?_, fun hne => ?_, fun hne => ?_⟩
  · obtain ⟨i, hi, rfl | ⟨width, rfl⟩⟩ | ⟨hbuf, -⟩ | hts := step_buffer h (buf := .cmd) hne
    · exact .inl hi
    · exact .inr (.inl ⟨width, hi⟩)
    · cases hbuf
    · exact .inr (.inr hts)
  · obtain ⟨i, hi, rfl | rfl | ⟨width, rfl⟩⟩ | ⟨hbuf, -⟩ | hts := step_buffer h (buf := .send) hne
    · exact .inl hi
    · exact .inr (.inl hi)
    · exact .inr (.inr (.inl ⟨width, hi⟩))
    · cases hbuf
    · exact .inr (.inr (.inr hts))
  · obtain ⟨i, hi, rfl⟩ | ⟨-, hbus⟩ | hts := step_buffer h (buf := .recv) hne
    · exact .inl hi
    · exact .inr (.inl hbus)
    · exact .inr (.inr hts)

/-! How an operation ends. -/

/-- The ingress draw does not see ERR. -/
theorem State.consumeIngress_raise (s : State) (e : Status) : (s.raise e).consumeIngress = s.consumeIngress.raise e := by
  unfold State.consumeIngress
  rw [State.raise_build]
  cases s.build.role <;> rfl

/-- STAGE writes ERR in each of its three cases (R190 to R192). -/
theorem State.stageBytes_raise (s : State) (e : Status) (a : List Byte) : (s.raise e).stageBytes a = s.stageBytes a := rfl

/-- What an instruction does does not depend on the ERR it finds, unless it is the issue of TRANSFER, which keeps it (R72). -/
theorem exec_raise {i : Instr} {s : State} (hi : ¬ (i = .transferFrame ∧ s.bridge = .ready)) (e : Status) :
    exec i (s.raise e) = exec i s := by
  cases hw : i.isWire with
  | true =>
    obtain ⟨op, vals, hcommit⟩ := exec_wire_commits hw
    rw [hcommit, hcommit]
    rfl
  | false =>
    cases i with
    | writeBits buf width => cases buf <;> rfl
    | stageFrame =>
      have hdraw : (s.raise e).ingressDraw = s.ingressDraw := rfl
      simp only [exec, execStage, State.raise_bridge, State.consumeIngress_raise, State.stageBytes_raise, hdraw]
      rfl
    | transferFrame =>
      cases hb : s.bridge with
      | ready => exact absurd ⟨rfl, hb⟩ hi
      | uninitialized | initialized => simp only [exec, execTransfer, State.raise_bridge, hb]; rfl
    | readBits _ _ | encodeCommand | decodeCommand _ | initBridge | beginBus | tearDown => rfl
    | _ => cases hw

/-- An instruction ends with OK, or with an error and nothing else changed (R232), or it is a STAGE that overflows (R191), or the issue of
TRANSFER, which has not ended yet (R196). -/
theorem exec_ends {i : Instr} {s t : State} (h : exec i s = .next t) :
    t.err = .ok ∨ t = s.raise t.err ∨
      (i = .stageFrame ∧ ∃ len ingress,
        t = { s with staged := false, ingressLen := len, err := .frameOverflow, env := { s.env with ingress := ingress } }) ∨
      (i = .transferFrame ∧ s.bridge = .ready) := by
  cases hw : i.isWire with
  | true =>
    obtain ⟨op, vals, e⟩ := exec_wire hw s
    rw [e] at h
    cases h
    exact .inl rfl
  | false =>
    cases i with
    | readBits _ _ =>
      obtain ⟨_, -, rfl⟩ | ⟨-, rfl⟩ := execReadBits_cases h
      · exact .inr (.inl rfl)
      · exact .inl rfl
    | writeBits _ _ =>
      obtain ⟨-, rfl⟩ | ⟨-, _, -, rfl⟩ | ⟨-, -, rfl⟩ := execWriteBits_cases h
      · exact .inr (.inl rfl)
      · exact .inr (.inl rfl)
      · exact .inl rfl
    | encodeCommand =>
      obtain ⟨-, rfl⟩ | ⟨_, -, rfl⟩ := execEncode_cases h
      · exact .inr (.inl rfl)
      · exact .inl rfl
    | decodeCommand _ =>
      obtain ⟨_, -, rfl⟩ | ⟨_, _, rfl⟩ := execDecode_cases h
      · exact .inr (.inl rfl)
      · exact .inl rfl
    | initBridge =>
      obtain ⟨-, rfl⟩ | ⟨-, rfl⟩ := execInit_cases h
      · exact .inr (.inl rfl)
      · exact .inl rfl
    | beginBus =>
      obtain ⟨-, rfl⟩ | ⟨-, rfl⟩ | ⟨-, rfl⟩ := execBegin_cases h
      · exact .inr (.inl rfl)
      · exact .inr (.inl rfl)
      · exact .inl rfl
    | stageFrame =>
      obtain ⟨-, rfl⟩ | ⟨-, _, ingress, -, rfl | ⟨-, rfl⟩ | ⟨-, -, rfl⟩⟩ := execStage_cases h
      · exact .inr (.inl rfl)
      · exact .inl rfl
      · exact .inr (.inr (.inl ⟨rfl, _, ingress, rfl⟩))
      · exact .inl rfl
    | transferFrame =>
      obtain ⟨-, rfl⟩ | ⟨hb, -⟩ := execTransfer_cases h
      · exact .inr (.inl rfl)
      · exact .inr (.inr (.inr ⟨rfl, hb⟩))
    | tearDown => obtain ⟨_, rfl⟩ := execTearDown_cases h; exact .inl rfl
    | _ => cases hw

/-- The issue of TRANSFER puts the transfer in flight and sends it out, and leaves the rest, ERR included (R196). -/
theorem exec_transferFrame_of_ready {s t : State} (hb : s.bridge = .ready) (h : exec .transferFrame s = .next t) :
    t = { s with xfer := t.xfer, sel := t.sel, busy := true, env := { s.env with ports := t.env.ports } } := by
  obtain ⟨hnot, -⟩ | ⟨-, rfl⟩ := execTransfer_cases h
  · exact absurd hb hnot
  · rfl

/-- Settles O54: the outcome does not depend on the ERR that was there, and the ways an instruction can end are those of `exec_ends`. -/
theorem failingOperationChangesErrAlone : Obligations.FailingOperationChangesErrAlone := by
  intro i s t h
  refine ⟨fun hi => ⟨fun e => (exec_raise hi e).trans h, fun herr => ?_⟩, fun hi hb => ?_⟩
  · obtain hok | hraise | ⟨hstage, _, _, rfl⟩ | hissue := exec_ends h
    · exact absurd hok herr
    · exact .inl hraise
    · exact .inr ⟨hstage, rfl, rfl⟩
    · exact absurd hissue hi
  · subst hi
    exact exec_transferFrame_of_ready hb h

end Sys2Proof.Machine
end

section
/-! The operation word (spec/30_encoding.md R80 to R89): its fields, what the decoder answers for each OP, and the classification of all words into
those that spell an instruction and those that are Illegal. -/

namespace Sys2Proof.Machine

/-! The fields of a word (R81). -/

@[simp] theorem opWordOf_op (op : BitVec 4) (buf : BitVec 2) (wid : BitVec 6) : (opWordOf op buf wid).extractLsb' 0 4 = op := by
  simp only [opWordOf, BitVec.extractLsb'_append_eq_right]

@[simp] theorem opWordOf_buf (op : BitVec 4) (buf : BitVec 2) (wid : BitVec 6) : (opWordOf op buf wid).extractLsb' 4 2 = buf := by
  simp (disch := omega) only [opWordOf, BitVec.extractLsb'_append_eq_of_le, Nat.reduceSub, BitVec.extractLsb'_append_eq_right]

@[simp] theorem opWordOf_wid (op : BitVec 4) (buf : BitVec 2) (wid : BitVec 6) : (opWordOf op buf wid).extractLsb' 6 6 = wid := by
  simp (disch := omega) only [opWordOf, BitVec.extractLsb'_append_eq_of_le, Nat.reduceSub, BitVec.extractLsb'_append_eq_right]

@[simp] theorem opWordOf_rsv (op : BitVec 4) (buf : BitVec 2) (wid : BitVec 6) : (opWordOf op buf wid).extractLsb' 12 20 = 0 := by
  simp (disch := omega) only [opWordOf, BitVec.extractLsb'_append_eq_of_le, Nat.reduceSub, BitVec.extractLsb'_eq_self]
  rfl

theorem opWordOf_toNat (op : BitVec 4) (buf : BitVec 2) (wid : BitVec 6) :
    (opWordOf op buf wid).toNat = op.toNat + 16 * buf.toNat + 64 * wid.toNat := by
  simp only [opWordOf, toNat_append_eq_add, BitVec.toNat_ofNat]
  omega

/-- RSV is 0 exactly in the words below 2^12. -/
theorem rsv_eq_zero_iff (v : Word) : v.extractLsb' 12 20 = 0 ↔ v.toNat / 2 ^ 12 = 0 := by
  have := v.isLt
  rw [BitVec.toNat_eq, BitVec.extractLsb'_toNat, Nat.shiftRight_eq_div_pow]
  change _ % 2 ^ 20 = 0 ↔ _
  omega

/-- A word whose RSV is 0 is made of its three other fields. -/
theorem opWordOf_fields {v : Word} (h : v.extractLsb' 12 20 = 0) :
    opWordOf (v.extractLsb' 0 4) (v.extractLsb' 4 2) (v.extractLsb' 6 6) = v := by
  rw [rsv_eq_zero_iff] at h
  apply BitVec.eq_of_toNat_eq
  simp only [opWordOf_toNat, BitVec.extractLsb'_toNat, Nat.shiftRight_eq_div_pow]
  omega

/-! What the decoder answers. -/

@[simp] theorem bufferOf_select (b : Buffer) : bufferOf b.select = some b := by cases b <;> rfl

theorem select_ne_reserved (b : Buffer) : b.select ≠ 3 := by cases b <;> decide

/-- BUF selects one of the three buffers, or is the reserved 3 (R83). -/
theorem select_or_reserved (buf : BitVec 2) : (∃ b : Buffer, buf = b.select) ∨ buf = 3 := by
  have hvalues : ∀ x : BitVec 2, x = Buffer.cmd.select ∨ x = Buffer.send.select ∨ x = Buffer.recv.select ∨ x = 3 := by decide
  obtain h | h | h | h := hvalues buf
  · exact .inl ⟨.cmd, h⟩
  · exact .inl ⟨.send, h⟩
  · exact .inl ⟨.recv, h⟩
  · exact .inr h

/-- The operations that use neither BUF nor WIDTH, each with its OP (R82). -/
def plainOps : List (BitVec 4 × Instr) :=
  [(2, .encodeCommand), (4, .initBridge), (5, .beginBus), (6, .stageFrame), (7, .transferFrame), (8, .tearDown)]

/-- A plain operation is spelled by its OP alone. -/
theorem encode_plain {op : BitVec 4} {i : Instr} (h : (op, i) ∈ plainOps) :
    i.isWire = false ∧ i.wellFormed = true ∧ encode i = .opWord (opWordOf op 0 0) := by
  fin_cases h <;> exact ⟨rfl, rfl, rfl⟩

/-- A bit of RSV is set (R85). -/
theorem decodeOpw_reservedBits {v : Word} (h : v.extractLsb' 12 20 ≠ 0) : decodeOpw v = .illegal .reservedBits := if_pos h

section
variable (buf : BitVec 2) (wid : BitVec 6)

theorem decodeOpw_readBits (b : Buffer) : decodeOpw (opWordOf 0 b.select wid) = .ok (.readBits b wid) := by
  simp [decodeOpw]

theorem decodeOpw_writeBits {b : Buffer} (h : b ≠ .recv) : decodeOpw (opWordOf 1 b.select wid) = .ok (.writeBits b wid) := by
  cases b with
  | recv => exact absurd rfl h
  | cmd | send => simp [decodeOpw]

/-- WRITEBITS may not select RECV (R89). -/
theorem decodeOpw_writeBits_recv : decodeOpw (opWordOf 1 Buffer.recv.select wid) = .illegal .reservedBuffer := by
  simp [decodeOpw]

/-- DECODE uses BUF and not WIDTH (R86). -/
theorem decodeOpw_decode (b : Buffer) :
    decodeOpw (opWordOf 3 b.select wid) = if wid = 0 then .ok (.decodeCommand b) else .illegal .unusedField := by
  simp [decodeOpw]

/-- BUF = 3 selects no buffer (R83, R89). -/
theorem decodeOpw_reservedBuffer {op : BitVec 4} (hop : op = 0 ∨ op = 1 ∨ op = 3) :
    decodeOpw (opWordOf op 3 wid) = .illegal .reservedBuffer := by
  obtain rfl | rfl | rfl := hop <;> simp [decodeOpw, bufferOf]

theorem decodeOpw_plain {op : BitVec 4} {i : Instr} (h : (op, i) ∈ plainOps) : decodeOpw (opWordOf op buf wid) = decodePlain buf wid i := by
  fin_cases h <;> simp [decodeOpw]

/-- OP = 9 to 15 is reserved (R88). -/
theorem decodeOpw_reservedOperation {op : BitVec 4} (h : 9 ≤ op.toNat) : decodeOpw (opWordOf op buf wid) = .illegal .reservedOperation := by
  obtain ⟨n, hn⟩ : ∃ n, op.toNat = n + 9 := ⟨op.toNat - 9, by omega⟩
  simp [decodeOpw, hn]

end

/-! Which words are Illegal. -/

/-- A bit of RSV is set (R85), or OP is reserved (R88), or BUF is a select that the operation may not use (R89), or a field that it does not
use is not 0 (R86). -/
def IllegalWord (v : Word) : Prop :=
  v.toNat / 2 ^ 12 ≠ 0 ∨
    (let op := v.toNat % 16
     let buf := v.toNat / 16 % 4
     let wid := v.toNat / 64 % 64
     (9 ≤ op) ∨ (buf = 3 ∧ (op = 0 ∨ op = 1 ∨ op = 3)) ∨ (buf = 2 ∧ op = 1) ∨
       (wid ≠ 0 ∧ 2 ≤ op ∧ op ≤ 8) ∨ (buf ≠ 0 ∧ (op = 2 ∨ (4 ≤ op ∧ op ≤ 8))))

section
variable {op : BitVec 4} {buf : BitVec 2} {wid : BitVec 6}

/-- The clauses for a word with RSV = 0, over its fields. -/
theorem illegalWord_opWordOf : IllegalWord (opWordOf op buf wid) ↔
    9 ≤ op.toNat ∨ (buf = 3 ∧ (op.toNat = 0 ∨ op.toNat = 1 ∨ op.toNat = 3)) ∨ (buf = 2 ∧ op.toNat = 1) ∨
      (wid ≠ 0 ∧ 2 ≤ op.toNat ∧ op.toNat ≤ 8) ∨ (buf ≠ 0 ∧ (op.toNat = 2 ∨ (4 ≤ op.toNat ∧ op.toNat ≤ 8))) := by
  have hv := opWordOf_toNat op buf wid
  have hrsv : (opWordOf op buf wid).toNat / 2 ^ 12 = 0 := by omega
  have hop : (opWordOf op buf wid).toNat % 16 = op.toNat := by omega
  have hbuf : (opWordOf op buf wid).toNat / 16 % 4 = buf.toNat := by omega
  have hwid : (opWordOf op buf wid).toNat / 64 % 64 = wid.toNat := by omega
  simp only [IllegalWord, hrsv, hop, hbuf, hwid, BitVec.toNat_eq, ne_eq, not_true_eq_false, false_or]
  rfl

theorem illegalWord_readBits : IllegalWord (opWordOf 0 buf wid) ↔ buf = 3 := by simp [illegalWord_opWordOf]

theorem illegalWord_writeBits : IllegalWord (opWordOf 1 buf wid) ↔ buf = 3 ∨ buf = 2 := by simp [illegalWord_opWordOf]

theorem illegalWord_decode : IllegalWord (opWordOf 3 buf wid) ↔ buf = 3 ∨ wid ≠ 0 := by simp [illegalWord_opWordOf]

theorem illegalWord_plain {i : Instr} (h : (op, i) ∈ plainOps) : IllegalWord (opWordOf op buf wid) ↔ ¬ (buf = 0 ∧ wid = 0) := by
  rw [illegalWord_opWordOf]
  fin_cases h <;> simp <;> tauto

end

/-! Classifying the words. -/

/-- The word spells the instruction, for the encoder and the decoder alike. -/
structure Spells (v : Word) (i : Instr) : Prop where
  notWire : i.isWire = false
  wellFormed : i.wellFormed = true
  encodes : encode i = .opWord v
  decodes : decodeOpw v = .ok i

/-- What a word is: it spells an instruction, or it is Illegal. -/
inductive Classified (v : Word) : Prop where
  | spells {i : Instr} (h : Spells v i) (hlegal : ¬ IllegalWord v)
  | illegal {why : DecodeError} (h : decodeOpw v = .illegal why) (hillegal : IllegalWord v)

section
variable (buf : BitVec 2) (wid : BitVec 6)

theorem classified_readBits : Classified (opWordOf 0 buf wid) := by
  obtain ⟨b, rfl⟩ | rfl := select_or_reserved buf
  · exact .spells ⟨rfl, rfl, rfl, decodeOpw_readBits wid b⟩ (mt illegalWord_readBits.mp (select_ne_reserved b))
  · exact .illegal (decodeOpw_reservedBuffer wid (by decide)) (illegalWord_readBits.mpr rfl)

theorem classified_writeBits : Classified (opWordOf 1 buf wid) := by
  obtain ⟨b, rfl⟩ | rfl := select_or_reserved buf
  · cases b with
    | recv => exact .illegal (decodeOpw_writeBits_recv wid) (illegalWord_writeBits.mpr (.inr rfl))
    | cmd | send => exact .spells ⟨rfl, rfl, rfl, decodeOpw_writeBits wid (by decide)⟩ (mt illegalWord_writeBits.mp (by decide))
  · exact .illegal (decodeOpw_reservedBuffer wid (by decide)) (illegalWord_writeBits.mpr (.inl rfl))

theorem classified_decode : Classified (opWordOf 3 buf wid) := by
  obtain ⟨b, rfl⟩ | rfl := select_or_reserved buf
  · have hd := decodeOpw_decode wid b
    by_cases h0 : wid = 0
    · subst h0
      exact .spells ⟨rfl, rfl, rfl, hd⟩ (mt illegalWord_decode.mp fun h => h.elim (select_ne_reserved b) (absurd rfl))
    · exact .illegal (hd.trans (if_neg h0)) (illegalWord_decode.mpr (.inr h0))
  · exact .illegal (decodeOpw_reservedBuffer wid (by decide)) (illegalWord_decode.mpr (.inl rfl))

theorem classified_plain {op : BitVec 4} {i : Instr} (hmem : (op, i) ∈ plainOps) : Classified (opWordOf op buf wid) := by
  have hd := decodeOpw_plain buf wid hmem
  have hillegal := illegalWord_plain (buf := buf) (wid := wid) hmem
  by_cases h0 : buf = 0 ∧ wid = 0
  · have hok := hd.trans (if_pos h0)
    obtain ⟨hwire, hwf, henc⟩ := encode_plain hmem
    rw [← h0.1, ← h0.2] at henc
    exact .spells ⟨hwire, hwf, henc, hok⟩ fun h => hillegal.mp h h0
  · exact .illegal (hd.trans (if_neg h0)) (hillegal.mpr h0)

end

/-- Every word spells an instruction or is Illegal: by RSV, then by the rows of R82. -/
theorem classified (v : Word) : Classified v := by
  by_cases hrsv : v.extractLsb' 12 20 = 0
  · have hrows : ∀ op : BitVec 4, op = 0 ∨ op = 1 ∨ op = 3 ∨ (∃ p ∈ plainOps, p.1 = op) ∨ 9 ≤ op.toNat := by decide
    rw [← opWordOf_fields hrsv]
    obtain h | h | h | ⟨⟨op, i⟩, hmem, h⟩ | h := hrows (v.extractLsb' 0 4)
    · rw [h]; exact classified_readBits _ _
    · rw [h]; exact classified_writeBits _ _
    · rw [h]; exact classified_decode _ _
    · rw [← h]; exact classified_plain _ _ hmem
    · exact .illegal (decodeOpw_reservedOperation _ _ h) (illegalWord_opWordOf.mpr (.inl h))
  · exact .illegal (decodeOpw_reservedBits hrsv) (.inl (mt (rsv_eq_zero_iff v).mpr hrsv))

/-- Settles O2: a word that decodes is not Illegal, so that it spells what it decodes to. -/
theorem encodeOfDecodedWordIsTheWord : Obligations.EncodeOfDecodedWordIsTheWord := by
  intro v i hd
  obtain ⟨⟨hwire, hwf, henc, hdec⟩, -⟩ | ⟨hillegal, -⟩ := classified v
  · rw [hd] at hdec
    cases hdec
    exact ⟨hwire, hwf, henc⟩
  · rw [hd] at hillegal
    cases hillegal

/-- Settles O3: each word stands on one side of both statements. -/
theorem illegalOperationWordsExactly : Obligations.IllegalOperationWordsExactly := by
  intro v
  obtain ⟨hspells, hlegal⟩ | ⟨hd, hillegal⟩ := classified v
  · refine iff_of_false (fun ⟨why, hwhy⟩ => ?_) hlegal
    rw [hspells.decodes] at hwhy
    cases hwhy
  · exact iff_of_true ⟨_, hd⟩ hillegal

/-! The encoder's words. -/

theorem decode_encode_plain {op : BitVec 4} {i : Instr} (h : (op, i) ∈ plainOps) : decode (encode i) = .ok i := by
  obtain ⟨-, -, henc⟩ := encode_plain h
  rw [henc]
  exact decodeOpw_plain 0 0 h

/-- The decoder reads the word of an operation back (R87). -/
theorem decode_encode_of_not_isWire {i : Instr} (hi : i.isWire = false) (hwf : i.wellFormed = true) : decode (encode i) = .ok i := by
  cases i with
  | readBits buf width => exact decodeOpw_readBits width buf
  | writeBits buf width => exact decodeOpw_writeBits width (by simpa [Instr.wellFormed] using hwf)
  | encodeCommand => exact decode_encode_plain (op := 2) (by decide)
  | decodeCommand buf => exact decodeOpw_decode 0 buf
  | initBridge => exact decode_encode_plain (op := 4) (by decide)
  | beginBus => exact decode_encode_plain (op := 5) (by decide)
  | stageFrame => exact decode_encode_plain (op := 6) (by decide)
  | transferFrame => exact decode_encode_plain (op := 7) (by decide)
  | tearDown => exact decode_encode_plain (op := 8) (by decide)
  | _ => cases hi

end Sys2Proof.Machine
end

section
/-! The wire command image (spec/30_encoding.md R91 to R95; spec/41_command_codec.md R144 to R152): the stream of an encoded image, its
fields, and what the decoder answers for each row of the schema table. -/

namespace Sys2Proof.Machine

/-! The stream of an image. -/

@[simp] theorem length_imageBytes (n x : Nat) : (imageBytes n x).length = n := by simp [imageBytes]

/-- The first byte of an image is the low byte of the stream, and the others are an image of the rest. -/
theorem imageBytes_succ (n x : Nat) : imageBytes (n + 1) x = BitVec.ofNat 8 x :: imageBytes n (x / 256) := by
  have hshift : ∀ i, x >>> (8 * (i + 1)) = (x / 256) >>> (8 * i) := fun i => by
    rw [show 8 * (i + 1) = 8 + 8 * i by omega, Nat.shiftRight_add, Nat.shiftRight_eq_div_pow x 8]
  simp only [imageBytes, List.range_succ_eq_map, List.map_cons, List.map_map, Function.comp_def, Nat.mul_zero, Nat.shiftRight_zero,
    Nat.succ_eq_add_one, hshift]

/-- The stream of `n` bytes is the number they were taken from, cut to its low `8 n` bits. -/
theorem streamNat_imageBytes (n : Nat) : ∀ x, streamNat (imageBytes n x) = x % 2 ^ (8 * n) := by
  induction n with
  | zero => intro x; simp [imageBytes, streamNat, Nat.mod_one]
  | succ n ih =>
    intro x
    rw [imageBytes_succ, streamNat, ih, BitVec.toNat_ofNat, show 8 * (n + 1) = 8 + 8 * n by omega, Nat.pow_add, Nat.mod_mul]

/-- An image that is long enough holds the whole number. -/
theorem streamNat_imageBytes_toNat {n w : Nat} (x : BitVec w) (h : w ≤ n * 8) : streamNat (imageBytes n x.toNat) = x.toNat := by
  rw [streamNat_imageBytes]
  exact Nat.mod_eq_of_lt (x.isLt.trans_le (Nat.pow_le_pow_right (by omega) (by omega)))

/-! The fields of a stream. -/

/-- The opcode is in the low six bits (R92). -/
theorem opcode_append {w : Nat} (fields : BitVec w) (op : BitVec 6) : (fields ++ op).toNat % 64 = op.toNat := by
  rw [toNat_append_eq_add]
  omega

/-- A field that is the whole number. -/
theorem imageField_self {w : Nat} (x : BitVec w) : imageField x.toNat 0 w = x := by
  simp [imageField]

/-- The field in the low bits. -/
theorem imageField_append_low {m n : Nat} (x : BitVec m) (y : BitVec n) : imageField (x ++ y).toNat 0 n = y :=
  BitVec.extractLsb'_append_eq_right

/-- A field above the low bits does not see them. -/
theorem imageField_append_high {m n p : Nat} (x : BitVec m) (y : BitVec n) (w : Nat) (h : n ≤ p) :
    imageField (x ++ y).toNat p w = imageField x.toNat (p - n) w :=
  BitVec.extractLsb'_append_eq_of_le h

/-! The rows of the schema table. -/

/-- The decoder's row for an opcode: an image with this opcode and at least `total` bits decodes to the command that `mk` takes from its
stream. -/
def WireRow (op : BitVec 6) (total : Nat) (mk : Nat → Instr) : Prop :=
  ∀ image, streamNat image % 64 = op.toNat → total ≤ image.length * 8 → decodeWire image = .ok (mk (streamNat image))

theorem decodeSized_of_le {have_ total : Nat} (h : total ≤ have_) (i : Instr) : decodeSized have_ total i = .ok i := if_neg (by omega)

/-- A row's one check is that the image is as long as the command. -/
theorem WireRow.of_decodeSized {op : BitVec 6} {total : Nat} {mk : Nat → Instr} (h6 : 6 ≤ total)
    (h : ∀ image, streamNat image % 64 = op.toNat → ¬ image.length * 8 < 6 →
      decodeWire image = decodeSized (image.length * 8) total (mk (streamNat image))) : WireRow op total mk :=
  fun image hop hlen => (h image hop (by omega)).trans (decodeSized_of_le hlen _)

theorem wireRow_setStripZLevel : WireRow 0x01#6 14 fun n => .setStripZLevel (imageField n 6 8) :=
  .of_decodeSized (by decide) fun image hop h6 => by simp only [decodeWire, hop, h6, if_false]; rfl

theorem wireRow_setTimingOffset : WireRow 0x02#6 30 fun n => .setTimingOffset (imageField n 6 24) :=
  .of_decodeSized (by decide) fun image hop h6 => by simp only [decodeWire, hop, h6, if_false]; rfl

theorem wireRow_setTimingScale : WireRow 0x03#6 30 fun n => .setTimingScale (imageField n 6 24) :=
  .of_decodeSized (by decide) fun image hop h6 => by simp only [decodeWire, hop, h6, if_false]; rfl

theorem wireRow_clearMemory : WireRow 0x04#6 16 fun n => .clearMemory (imageField n 6 10) :=
  .of_decodeSized (by decide) fun image hop h6 => by simp only [decodeWire, hop, h6, if_false]; rfl

theorem wireRow_setZLevelQuad : WireRow 0x05#6 16 fun n => .setZLevelQuad (imageField n 6 2) (imageField n 8 8) :=
  .of_decodeSized (by decide) fun image hop h6 => by simp only [decodeWire, hop, h6, if_false]; rfl

theorem wireRow_setPaletteColor : WireRow 0x06#6 48 fun n =>
    .setPaletteColor (imageField n 6 10) (imageField n 16 8) (imageField n 24 8) (imageField n 32 8) (imageField n 40 8) :=
  .of_decodeSized (by decide) fun image hop h6 => by simp only [decodeWire, hop, h6, if_false]; rfl

theorem wireRow_drawZOrderPixels : WireRow 0x07#6 48 fun n =>
    .drawZOrderPixels (imageField n 6 2) (imageField n 8 16) (imageField n 24 16) (imageField n 40 8) :=
  .of_decodeSized (by decide) fun image hop h6 => by simp only [decodeWire, hop, h6, if_false]; rfl

theorem wireRow_drawXYPixel : WireRow 0x08#6 32 fun n => .drawXYPixel (imageField n 6 2) (imageField n 8 8) (imageField n 16 8) (imageField n 24 8) :=
  .of_decodeSized (by decide) fun image hop h6 => by simp only [decodeWire, hop, h6, if_false]; rfl

theorem wireRow_drawRect : WireRow 0x09#6 48 fun n =>
    .drawRect (imageField n 6 2) (imageField n 8 8) (imageField n 16 8) (imageField n 24 8) (imageField n 32 8) (imageField n 40 8) :=
  .of_decodeSized (by decide) fun image hop h6 => by simp only [decodeWire, hop, h6, if_false]; rfl

/-- A row reads an encoded image back, where it takes the command from the fields that were put in. -/
theorem WireRow.decode_image {op : BitVec 6} {w total n : Nat} {mk : Nat → Instr} (hrow : WireRow op total mk) {fields : BitVec w} {i : Instr}
    (hw : w + 6 = total) (hn : total ≤ n * 8) (hmk : mk (fields ++ op).toNat = i) :
    decode (.image (imageBytes n (fields ++ op).toNat)) = .ok i := by
  have hstream := streamNat_imageBytes_toNat (fields ++ op) (hw.trans_le hn)
  have hdecode := hrow (imageBytes n (fields ++ op).toNat) (by rw [hstream, opcode_append]) (by rwa [length_imageBytes])
  rwa [hstream, hmk] at hdecode

/-- The decoder reads the image of a wire command back (R92). -/
theorem decode_encode_of_isWire {i : Instr} (hi : i.isWire = true) : decode (encode i) = .ok i := by
  cases i
  case' setStripZLevel => refine wireRow_setStripZLevel.decode_image rfl (by decide) ?_
  case' setTimingOffset => refine wireRow_setTimingOffset.decode_image rfl (by decide) ?_
  case' setTimingScale => refine wireRow_setTimingScale.decode_image rfl (by decide) ?_
  case' clearMemory => refine wireRow_clearMemory.decode_image rfl (by decide) ?_
  case' setZLevelQuad => refine wireRow_setZLevelQuad.decode_image rfl (by decide) ?_
  case' setPaletteColor => refine wireRow_setPaletteColor.decode_image rfl (by decide) ?_
  case' drawZOrderPixels => refine wireRow_drawZOrderPixels.decode_image rfl (by decide) ?_
  case' drawXYPixel => refine wireRow_drawXYPixel.decode_image rfl (by decide) ?_
  case' drawRect => refine wireRow_drawRect.decode_image rfl (by decide) ?_
  case readBits | writeBits | encodeCommand | decodeCommand | initBridge | beginBus | stageFrame | transferFrame | tearDown => cases hi
  all_goals simp (disch := decide) only [imageField_append_high, imageField_append_low, imageField_self, Nat.reduceSub]

/-- Settles O1: the operation words by their rows of R82, the command images by their rows of the schema table. -/
theorem decodeOfEncodeIsTheInstruction : Obligations.DecodeOfEncodeIsTheInstruction := by
  intro i hwf
  cases hi : i.isWire with
  | true => exact decode_encode_of_isWire hi
  | false => exact decode_encode_of_not_isWire hi hwf

/-- Settles O5: the decoders evaluate on the words and images of the spec's tables. -/
theorem specWordsDecodeAsTabled : Obligations.SpecWordsDecodeAsTabled := by
  unfold Obligations.SpecWordsDecodeAsTabled
  decide

end Sys2Proof.Machine
end

section
/-! The host write that issues (spec/10_state.md R25; spec/70_reset_and_hazards.md R264): at once, or held and let through. -/

namespace Sys2Proof.Machine

/-- A write to OPW while BUSY = 0 issues (R25). -/
theorem State.hostWriteMove_of_idle {s : State} {off : BitVec 8} (hoff : regAt off = some .opw) (hbusy : s.busy = false) (v : Word) :
    s.hostWriteMove off v = .issue v s := by
  simp only [State.hostWriteMove, hoff, hbusy, if_true, Bool.false_eq_true, if_false]

/-- A held write is let through once BUSY = 0 (R264). -/
theorem State.hostMove_of_held_idle {s : State} {v : Word} (hheld : s.held = some v) (hbusy : s.busy = false) :
    s.hostMove = .issue v { s with held := none } := by
  simp only [State.hostMove, hheld, hbusy, Bool.false_eq_true, if_false]

section
variable {s : State} {ts : List Turn} {v : Word} (hts : s.env.turns = .host :: ts) (hbusy : s.busy = false)
include hts hbusy

/-- A host turn that writes to OPW issues the word, where the schedule and the host's line have moved on. -/
theorem State.nextMove_of_opwWrite {off : BitVec 8} (hoff : off.toNat < 4) (hheld : s.held = none)
    (hl : s.env.program[s.env.line]? = some (.wr off v)) :
    s.nextMove = .issue v { s with env := { s.env with turns := ts, line := s.env.line + 1 } } := by
  have hissue := State.hostWriteMove_of_idle (s := s.afterTurn.atLine (s.env.line + 1)) (regAt_of_lt_four hoff) hbusy v
  rw [State.nextMove_of_host hts, State.hostMove_of_line (s := s.afterTurn) hheld hl]
  refine hissue.trans ?_
  rw [State.afterTurn_of_turns hts]
  rfl

/-- A host turn with a held write issues that word, where the schedule has moved on and nothing is held. -/
theorem State.nextMove_of_heldWrite (hheld : s.held = some v) :
    s.nextMove = .issue v { s with held := none, env := { s.env with turns := ts } } := by
  rw [State.nextMove_of_host hts, State.hostMove_of_held_idle (s := s.afterTurn) hheld hbusy, State.afterTurn_of_turns hts]

end

/-- Settles O37: both writes issue the word, and an issued word that decodes runs its operation. -/
theorem stepRunsTheDecodedInstruction : Obligations.StepRunsTheDecodedInstruction := by
  intro s ts v i hts hbusy hd
  refine ⟨fun off hoff hheld hl => ?_, fun hheld => ?_⟩
  · exact step_of_issue_ok (State.nextMove_of_opwWrite hts hbusy hoff hheld hl) hd
  · exact step_of_issue_ok (State.nextMove_of_heldWrite hts hbusy hheld) hd

/-- Settles O38: both writes issue the word, and an issued word that is Illegal raises IllegalOp. -/
theorem illegalWordRaisesIllegalOpOnly : Obligations.IllegalWordRaisesIllegalOpOnly := by
  intro s ts v why hts hbusy hd
  refine ⟨fun off hoff hheld hl => ?_, fun hheld => ?_⟩
  · exact step_of_issue_illegal (State.nextMove_of_opwWrite hts hbusy hoff hheld hl) hd
  · exact step_of_issue_illegal (State.nextMove_of_heldWrite hts hbusy hheld) hd

end Sys2Proof.Machine
end

section
/-! The pure functions of the bit-slice unit (spec/40_bitslice.md R113 to R117, R121), read off the stream bits: what BitReadCore gathers, what
BitWriteCore leaves, and the bytes that both reach. -/

namespace Sys2Proof.Machine

/-! BitReadCore. -/

/-- The bits of BitReadCore are the stream bits from `o` on, and zeros behind them. -/
theorem bitReadCore_getLsbD (m : Memory) (o : Nat) {w : Nat} (hw : w ≤ 32) (i : Nat) :
    (bitReadCore m o w).getLsbD i = (decide (i < w) && streamBit m (o + i)) := by
  rw [bitReadCore, BitVec.getLsbD_ofNat, bitReadLoop_testBit m w o w 0 0 i le_rfl]
  by_cases hi : i < w
  · simp [hi, hi.trans_le hw]
  · simp [hi]

/-- The low `w` bits of a number are the sum of their powers of two. -/
theorem mod_two_pow_eq_sum (n w : Nat) : n % 2 ^ w = ((List.range w).map fun i => if n.testBit i then 2 ^ i else 0).sum := by
  induction w with
  | zero => simp [Nat.mod_one]
  | succ w ih =>
    rw [Nat.mod_pow_succ, ← Nat.toNat_testBit, ih, List.range_succ, List.map_append, List.sum_append]
    cases hbit : n.testBit w <;> simp [hbit]

/-- BitReadCore fits in its width. -/
theorem bitReadCore_lt_two_pow (m : Memory) (o : Nat) {w : Nat} (hw : w ≤ 32) : (bitReadCore m o w).toNat < 2 ^ w := by
  refine Nat.lt_pow_two_of_testBit _ fun i hi => ?_
  rw [BitVec.testBit_toNat, bitReadCore_getLsbD m o hw, decide_eq_false (Nat.not_lt.mpr hi), Bool.false_and]

/-- Settles O6: BitReadCore fits in `w` bits, so it is the sum of them, and they are the stream bits. -/
theorem bitReadCoreClosedForm : Obligations.BitReadCoreClosedForm := by
  intro m o w hw
  constructor
  · rw [← Nat.mod_eq_of_lt (bitReadCore_lt_two_pow m o hw), mod_two_pow_eq_sum]
    congr 1
    refine List.map_congr_left fun i hi => ?_
    rw [BitVec.testBit_toNat, bitReadCore_getLsbD m o hw, decide_eq_true (List.mem_range.mp hi), Bool.true_and]
  · intro i hi
    rw [bitReadCore_getLsbD m o hw, decide_eq_false (Nat.not_lt.mpr hi), Bool.false_and]

/-! BitWriteCore. -/

/-- Settles O7: BitWriteCore is its loop, from the first bit of `v` on. -/
theorem bitWriteCoreClosedForm : Obligations.BitWriteCoreClosedForm := by
  intro m o w v hm _ k
  rw [bitWriteCore, bitWriteLoop_streamBit v.toNat k w m o w 0 hm le_rfl, Nat.zero_add, BitVec.testBit_toNat]

/-- What BitWriteCore has written, BitReadCore reads back: a value that fits in the width (R122). -/
theorem bitReadCore_bitWriteCore {m : Memory} (hm : m.wf = true) (o : Nat) {w : Nat} (hw : w ≤ 32) {v : Word} (hv : v.toNat < 2 ^ w) :
    bitReadCore (bitWriteCore m o w v) o w = v := by
  refine BitVec.eq_of_getLsbD_eq fun i _ => ?_
  rw [bitReadCore_getLsbD _ o hw, bitWriteCoreClosedForm m o w v hm hw]
  by_cases hi : i < w
  · simp [hi]
  · have hfits : v.getLsbD i = false := Nat.testBit_lt_two_pow (hv.trans_le (Nat.pow_le_pow_right (by omega) (by omega)))
    simp [hi, hfits]

/-! The span of an access. -/

/-- A byte is its eight stream bits. -/
theorem Memory.read_eq_of_streamBit {m m' : Memory} {a : Nat} (h : ∀ k, k / 8 = a → streamBit m k = streamBit m' k) : m.read a = m'.read a := by
  refine BitVec.eq_of_getLsbD_eq fun j hj => ?_
  have hbit := h (8 * a + j) (by omega)
  rwa [streamBit, streamBit, show (8 * a + j) / 8 = a by omega, show (8 * a + j) % 8 = j by omega] at hbit

/-- BitWriteCore leaves every byte outside the span of the access. -/
theorem bitWriteCore_read_outside {m : Memory} (hm : m.wf = true) {o w a : Nat} (hw : w ≤ 32) (v : Word)
    (ha : a < o / 8 ∨ (o + w - 1) / 8 < a) : (bitWriteCore m o w v).read a = m.read a := by
  refine Memory.read_eq_of_streamBit fun k hk => ?_
  rw [bitWriteCoreClosedForm m o w v hm hw, if_neg (by omega)]

/-- BitReadCore sees the bytes of the span of the access and no other. -/
theorem bitReadCore_congr {m m' : Memory} {o w : Nat} (hw : w ≤ 32)
    (h : ∀ a, o / 8 ≤ a → a ≤ (o + w - 1) / 8 → m.read a = m'.read a) : bitReadCore m o w = bitReadCore m' o w := by
  refine BitVec.eq_of_getLsbD_eq fun i _ => ?_
  rw [bitReadCore_getLsbD m o hw, bitReadCore_getLsbD m' o hw]
  by_cases hi : i < w
  · rw [streamBit, streamBit, h ((o + i) / 8) (by omega) (by omega)]
  · rw [decide_eq_false hi, Bool.false_and, Bool.false_and]

/-- Settles O8: neither core reaches a byte outside the span, and the size of the span is arithmetic. -/
theorem sliceTouchesItsByteSpanOnly : Obligations.SliceTouchesItsByteSpanOnly := by
  intro m m' o w v hm h1 hw
  exact ⟨fun _ ha => bitWriteCore_read_outside hm hw v ha, bitReadCore_congr hw, by omega, by omega⟩

end Sys2Proof.Machine
end

section
/-! The operations of the bit-slice unit (spec/40_bitslice.md R118 to R122): which check of the shared operands fails first (R233), what READBITS
and WRITEBITS answer then, and what they answer when all checks pass. -/

namespace Sys2Proof.Machine

/-! The checks. -/

section
variable {s : State} {buf : Buffer} {wid : BitVec 6}

/-- The first check: the buffer is there (R120). -/
theorem State.sliceOperands_notReady (ha : ¬ s.allocated buf) : s.sliceOperands buf wid = .error .notReady := by
  simp only [State.sliceOperands, State.resolveBuffer_of_not_allocated ha]

/-- The second check: the width (R111). -/
theorem State.sliceOperands_invalidWidth (ha : s.allocated buf) (hwid : wid.toNat = 0 ∨ 32 < wid.toNat) :
    s.sliceOperands buf wid = .error .invalidWidth := by
  simp only [State.sliceOperands, State.resolveBuffer_of_allocated ha]
  rw [if_pos (by omega)]

/-- The third check: LEN against the buffer, and the access against LEN (R112). -/
theorem State.sliceOperands_outOfBounds (ha : s.allocated buf) (h1 : 1 ≤ wid.toNat) (h32 : wid.toNat ≤ 32)
    (hout : s.bufferSize buf < s.len.toNat ∨ s.len.toNat * 8 < s.offset.toNat + wid.toNat) :
    s.sliceOperands buf wid = .error .outOfBounds := by
  simp only [State.sliceOperands, State.resolveBuffer_of_allocated ha]
  rw [if_neg (by omega)]
  by_cases hlen : s.bufferSize buf < s.len.toNat
  · rw [if_pos hlen]
  · rw [if_neg hlen, if_pos (hout.resolve_left hlen)]

/-! What READBITS and WRITEBITS answer. -/

/-- READBITS raises what the checks raise. -/
theorem exec_readBits_of_error {st : Status} (h : s.sliceOperands buf wid = .error st) : exec (.readBits buf wid) s = .next (s.raise st) := by
  simp only [exec, execReadBits, h]

/-- READBITS in bounds puts BitReadCore into RESULT. -/
theorem exec_readBits_of_inBounds (h : s.sliceInBounds buf wid) :
    exec (.readBits buf wid) s = .next { s with result := bitReadCore (s.buffer buf) s.offset.toNat wid.toNat, err := .ok } := by
  simp only [exec, execReadBits, State.sliceOperands_of_inBounds h]

/-- WRITEBITS on CMD or SEND raises what the checks raise. -/
theorem exec_writeBits_of_error (hbuf : buf ≠ .recv) {st : Status} (h : s.sliceOperands buf wid = .error st) :
    exec (.writeBits buf wid) s = .next (s.raise st) := by
  cases buf with
  | recv => exact absurd rfl hbuf
  | cmd | send => simp only [exec, execWriteBits, h]

/-- WRITEBITS on CMD or SEND in bounds replaces the buffer by what BitWriteCore makes of it. -/
theorem exec_writeBits_of_inBounds (hbuf : buf ≠ .recv) (h : s.sliceInBounds buf wid) :
    exec (.writeBits buf wid) s =
      .next ((s.setBuffer buf (bitWriteCore (s.buffer buf) s.offset.toNat wid.toNat s.value)).raise .ok) := by
  cases buf with
  | recv => exact absurd rfl hbuf
  | cmd | send => simp only [exec, execWriteBits, State.sliceOperands_of_inBounds h]

@[simp] theorem State.buffer_raise (st : Status) : (s.raise st).buffer buf = s.buffer buf := by cases buf <;> rfl

/-- The checks look at no buffer's contents and not at ERR. -/
theorem State.sliceInBounds_setBuffer_raise {m : Memory} {st : Status} (h : s.sliceInBounds buf wid) :
    ((s.setBuffer buf m).raise st).sliceInBounds buf wid := by
  cases buf <;> exact h

/-- WRITEBITS in bounds changes the target bits of its buffer, and ERR. -/
theorem exec_writeBits_target (hbuf : buf ≠ .recv) (h : s.sliceInBounds buf wid) (hwf : (s.buffer buf).wf = true) :
    ∃ m : Memory, exec (.writeBits buf wid) s = .next ((s.setBuffer buf m).raise .ok) ∧ m.wf = true ∧
      (∀ k, streamBit m k =
        if s.offset.toNat ≤ k ∧ k < s.offset.toNat + wid.toNat then s.value.getLsbD (k - s.offset.toNat) else streamBit (s.buffer buf) k) ∧
      ∀ a, (a < s.offset.toNat / 8 ∨ (s.offset.toNat + wid.toNat - 1) / 8 < a) → m.read a = (s.buffer buf).read a := by
  have hexec := exec_writeBits_of_inBounds hbuf h
  obtain ⟨-, -, h32, -, -⟩ := h
  exact ⟨_, hexec, bitWriteCore_wf hwf _ _ _, bitWriteCoreClosedForm _ _ _ _ hwf h32, fun _ ha => bitWriteCore_read_outside hwf h32 _ ha⟩

/-- WRITEBITS then READBITS with the same operands: the value comes back, and no bit outside the target has changed (R122). -/
theorem exec_writeBits_readBits (hbuf : buf ≠ .recv) (h : s.sliceInBounds buf wid) (hwf : (s.buffer buf).wf = true) :
    ∃ t u, exec (.writeBits buf wid) s = .next t ∧ exec (.readBits buf wid) t = .next u ∧
      (s.value.toNat < 2 ^ wid.toNat → u.result = s.value) ∧
      ∀ k, (k < s.offset.toNat ∨ s.offset.toNat + wid.toNat ≤ k) → streamBit (t.buffer buf) k = streamBit (s.buffer buf) k := by
  refine ⟨_, _, exec_writeBits_of_inBounds hbuf h, exec_readBits_of_inBounds (State.sliceInBounds_setBuffer_raise h), ?_⟩
  obtain ⟨-, -, h32, -, -⟩ := h
  simp only [State.buffer_raise, State.buffer_setBuffer, State.raise_offset, State.setBuffer_offset]
  refine ⟨bitReadCore_bitWriteCore hwf _ h32, fun k hk => ?_⟩
  rw [bitWriteCoreClosedForm _ _ _ _ hwf h32, if_neg (by omega)]

end

/-! The obligations. -/

/-- Settles O9: RESULT is BitReadCore of the buffer, whose bits are the stream bits. -/
theorem readBitsPutsStreamBitsInResult : Obligations.ReadBitsPutsStreamBitsInResult := by
  intro buf wid s h
  refine ⟨_, exec_readBits_of_inBounds h, fun i _ => ?_⟩
  obtain ⟨-, -, h32, -, -⟩ := h
  exact bitReadCore_getLsbD _ _ h32 i

/-- Settles O10: READBITS raises what the first failing check raises. -/
theorem readBitsReportsItsFirstError : Obligations.ReadBitsReportsItsFirstError := by
  intro buf wid s
  exact ⟨fun ha => exec_readBits_of_error (State.sliceOperands_notReady ha),
    fun ha hwid => exec_readBits_of_error (State.sliceOperands_invalidWidth ha hwid),
    fun ha h1 h32 hout => exec_readBits_of_error (State.sliceOperands_outOfBounds ha h1 h32 hout)⟩

/-- Settles O11: CMD and SEND are the two buffers that WRITEBITS may name. -/
theorem writeBitsChangesItsTargetBitsOnly : Obligations.WriteBitsChangesItsTargetBitsOnly := by
  intro wid s
  exact ⟨exec_writeBits_target (by decide), exec_writeBits_target (by decide)⟩

/-- Settles O12: WRITEBITS raises what the first failing check raises, on CMD and SEND; RECV is no buffer of it. -/
theorem writeBitsReportsItsFirstError : Obligations.WriteBitsReportsItsFirstError := by
  intro buf wid s
  exact ⟨rfl, fun hbuf ha => exec_writeBits_of_error hbuf (State.sliceOperands_notReady ha),
    fun hbuf ha hwid => exec_writeBits_of_error hbuf (State.sliceOperands_invalidWidth ha hwid),
    fun hbuf ha h1 h32 hout => exec_writeBits_of_error hbuf (State.sliceOperands_outOfBounds ha h1 h32 hout)⟩

/-- Settles O13: round trip and isolation by the closed forms of the two cores; an access out of bounds raises and changes no buffer. -/
theorem sliceRoundTripIsolationAtomicity : Obligations.SliceRoundTripIsolationAtomicity := by
  refine ⟨fun _ _ _ => exec_writeBits_readBits, fun buf wid s ha h1 h32 hout => ?_⟩
  have herror := State.sliceOperands_outOfBounds ha h1 h32 hout
  exact ⟨⟨_, exec_readBits_of_error herror, rfl, rfl, rfl, rfl⟩, fun hbuf => ⟨_, exec_writeBits_of_error hbuf herror, rfl, rfl, rfl, rfl⟩⟩

end Sys2Proof.Machine
end

section
/-! The command stream (spec/41_command_codec.md R92, R143, R154, R155): a command as one number, its opcode in the low six bits and its fields
above it in declared order. The encoder's image, the image ENCODE builds and the fields DECODE reads are each tied to it. -/

namespace Sys2Proof.Machine

/-! Fields packed into a number, and cut to their widths. -/

/-- The fields of a schema as one number, the first field lowest; of each value the low bits. -/
def packFields : Schema → List Word → Nat
  | [], _ => 0
  | f :: fs, vals => (vals.headD 0).toNat % 2 ^ f.width + 2 ^ f.width * packFields fs vals.tail

/-- The fields of a schema, each value cut to its width. -/
def maskFields : Schema → List Word → List Word
  | [], _ => []
  | f :: fs, vals => BitVec.ofNat 32 ((vals.headD 0).toNat % 2 ^ f.width) :: maskFields fs vals.tail

/-- The stream of a command: stream bit k of its image is bit k. -/
def commandStream (op : BitVec 6) (sch : Schema) (vals : List Word) : Nat := op.toNat + 64 * packFields sch vals

theorem Schema.payloadBits_cons (f : FieldSpec) (fs : Schema) : Schema.payloadBits (f :: fs) = f.width + fs.payloadBits := rfl

theorem packFields_lt (sch : Schema) : ∀ vals, packFields sch vals < 2 ^ sch.payloadBits := by
  induction sch with
  | nil => intro _; exact Nat.one_pos
  | cons f fs ih =>
    intro vals
    have hlow : (vals.headD 0).toNat % 2 ^ f.width < 2 ^ f.width := Nat.mod_lt _ (Nat.two_pow_pos _)
    have hhigh := Nat.mul_le_mul_left (2 ^ f.width) (ih vals.tail)
    calc packFields (f :: fs) vals
      _ < 2 ^ f.width * (packFields fs vals.tail).succ := by simp only [packFields, Nat.mul_succ]; omega
      _ ≤ 2 ^ f.width * 2 ^ Schema.payloadBits fs := hhigh
      _ = 2 ^ Schema.payloadBits (f :: fs) := by rw [← Nat.pow_add, Schema.payloadBits_cons]

theorem commandStream_lt (op : BitVec 6) (sch : Schema) (vals : List Word) : commandStream op sch vals < 2 ^ (6 + sch.payloadBits) := by
  have hop := op.isLt
  have hfields := packFields_lt sch vals
  rw [commandStream, Nat.pow_add]
  omega

/-- The bits of the packed fields: those of the first field, then those of the others. -/
theorem packFields_cons_testBit (f : FieldSpec) (fs : Schema) (vals : List Word) (k : Nat) :
    (packFields (f :: fs) vals).testBit k = if k < f.width then (vals.headD 0).getLsbD k else (packFields fs vals.tail).testBit (k - f.width) := by
  rw [packFields, Nat.add_comm, Nat.testBit_two_pow_mul_add _ (Nat.mod_lt _ (Nat.two_pow_pos _)), Nat.testBit_mod_two_pow]
  by_cases hk : k < f.width
  · rw [if_pos hk, if_pos hk, decide_eq_true hk, Bool.true_and, BitVec.testBit_toNat]
  · rw [if_neg hk, if_neg hk]

/-- The bits of a command's stream: those of the opcode, then those of the fields. -/
theorem commandStream_testBit (op : BitVec 6) (sch : Schema) (vals : List Word) (k : Nat) :
    (commandStream op sch vals).testBit k = if k < 6 then op.getLsbD k else (packFields sch vals).testBit (k - 6) := by
  rw [commandStream, Nat.add_comm, show 64 = 2 ^ 6 from rfl, Nat.testBit_two_pow_mul_add _ op.isLt, BitVec.testBit_toNat]

theorem headD_eq_getD (vals : List Word) : vals.headD 0 = vals.getD 0 0 := by cases vals <;> rfl

theorem tail_getD (vals : List Word) (j : Nat) : vals.tail.getD j 0 = vals.getD (j + 1) 0 := by cases vals <;> rfl

/-- Lists of the same values have the same first value and the same values behind it. -/
theorem headD_tail_congr {vals vals' : List Word} (h : ∀ j, vals.getD j 0 = vals'.getD j 0) :
    vals.headD 0 = vals'.headD 0 ∧ ∀ j, vals.tail.getD j 0 = vals'.tail.getD j 0 := by
  simp only [headD_eq_getD, tail_getD]
  exact ⟨h 0, fun j => h (j + 1)⟩

/-- Only the values themselves count, not how the list ends: a missing value is 0. -/
theorem packFields_congr (sch : Schema) : ∀ {vals vals' : List Word}, (∀ j, vals.getD j 0 = vals'.getD j 0) →
    packFields sch vals = packFields sch vals' := by
  induction sch with
  | nil => intros; rfl
  | cons f fs ih =>
    intro vals vals' h
    obtain ⟨hhead, htail⟩ := headD_tail_congr h
    rw [packFields, packFields, hhead, ih htail]

theorem maskFields_congr (sch : Schema) : ∀ {vals vals' : List Word}, (∀ j, vals.getD j 0 = vals'.getD j 0) →
    maskFields sch vals = maskFields sch vals' := by
  induction sch with
  | nil => intros; rfl
  | cons f fs ih =>
    intro vals vals' h
    obtain ⟨hhead, htail⟩ := headD_tail_congr h
    rw [maskFields, maskFields, hhead, ih htail]

/-- Each masked field is its value modulo 2 to its width; past the last field the width is 0, and so is the value. -/
theorem maskFields_getD (sch : Schema) : ∀ (vals : List Word) (j : Nat),
    ((maskFields sch vals).getD j 0).toNat = (vals.getD j 0).toNat % 2 ^ sch.widthAt j := by
  induction sch with
  | nil => intro vals j; simp [maskFields, Schema.widthAt, Nat.mod_one]
  | cons f fs ih =>
    intro vals j
    cases j with
    | zero =>
      have hlt := ((vals.getD 0 0).toNat.mod_le (2 ^ f.width)).trans_lt (vals.getD 0 0).isLt
      simp only [maskFields, Schema.widthAt, List.map_cons, List.getD_cons_zero, BitVec.toNat_ofNat, headD_eq_getD]
      exact Nat.mod_eq_of_lt hlt
    | succ j =>
      rw [maskFields, List.getD_cons_succ, ih, tail_getD]
      rfl

/-- Past the last field there is no width. -/
theorem Schema.widthAt_of_length_le {sch : Schema} {j : Nat} (h : sch.length ≤ j) : sch.widthAt j = 0 := by
  simp [Schema.widthAt, h]

/-! What ENCODE puts into the image. -/

/-- The field loop of ENCODE writes the packed fields from bit cursor `p` on, and nothing else. -/
theorem putFields_streamBit (sch : Schema) : ∀ {img : Memory} (p : Nat) (vals : List Word), img.wf = true → (∀ f ∈ sch, f.width ≤ 32) → ∀ k,
    streamBit (putFields img p sch vals).1 k =
      if p ≤ k ∧ k < p + sch.payloadBits then (packFields sch vals).testBit (k - p) else streamBit img k := by
  induction sch with
  | nil => intro img p vals _ _ k; rw [if_neg (by simp only [Schema.payloadBits, List.map_nil, List.sum_nil]; omega)]; rfl
  | cons f fs ih =>
    intro img p vals hwf hwidth k
    obtain ⟨hf, hfs⟩ := List.forall_mem_cons.mp hwidth
    have hbits := Schema.payloadBits_cons f fs
    rw [putFields, ih _ _ (bitWriteCore_wf hwf _ _ _) hfs, bitWriteCoreClosedForm _ _ _ _ hwf hf, packFields_cons_testBit, hbits]
    by_cases hlater : p + f.width ≤ k ∧ k < p + f.width + Schema.payloadBits fs
    · rw [if_pos hlater, if_pos (by omega), if_neg (by omega), Nat.sub_add_eq]
    · rw [if_neg hlater]
      by_cases hfirst : p ≤ k ∧ k < p + f.width
      · rw [if_pos hfirst, if_pos (by omega), if_pos (by omega)]
      · rw [if_neg hfirst, if_neg (by omega)]

theorem streamBit_zero (k : Nat) : streamBit Memory.zero k = false := by simp [streamBit, Memory.zero, Memory.read, unlistedByte]

/-- ENCODE builds the command's stream over zero bytes (R154). -/
theorem buildImage_streamBit {sch : Schema} (hwidth : ∀ f ∈ sch, f.width ≤ 32) (op : BitVec 6) (vals : List Word) (k : Nat) :
    streamBit (buildImage op sch vals).1 k = (commandStream op sch vals).testBit k := by
  have hzero : Memory.zero.wf = true := rfl
  rw [buildImage, putFields_streamBit sch 6 vals (bitWriteCore_wf hzero _ _ _) hwidth, bitWriteCoreClosedForm _ _ _ _ hzero (by decide),
    streamBit_zero, commandStream_testBit]
  by_cases hop : k < 6
  · rw [if_neg (by omega), if_pos (by omega), if_pos hop]
    simp [show k < 32 by omega]
  · rw [if_neg hop]
    by_cases hfields : k < 6 + sch.payloadBits
    · rw [if_pos (by omega)]
    · have hpast : packFields sch vals < 2 ^ (k - 6) := (packFields_lt sch vals).trans_le (Nat.pow_le_pow_right (by omega) (by omega))
      rw [if_neg (by omega), if_neg (by omega), Nat.testBit_lt_two_pow hpast]

/-! What DECODE reads from the image. -/

/-- The fields that DECODE reads, packed again, are the stream bits from bit cursor `p` on. -/
theorem packFields_getFields_testBit (b : Memory) (sch : Schema) : ∀ (p : Nat), (∀ f ∈ sch, f.width ≤ 32) → ∀ k < sch.payloadBits,
    (packFields sch (getFields b p sch)).testBit k = streamBit b (p + k) := by
  induction sch with
  | nil => intro p _ k hk; exact absurd hk (Nat.not_lt_zero k)
  | cons f fs ih =>
    intro p hwidth k hk
    obtain ⟨hf, hfs⟩ := List.forall_mem_cons.mp hwidth
    have hbits := Schema.payloadBits_cons f fs
    rw [packFields_cons_testBit, getFields, List.headD_cons, List.tail_cons]
    by_cases hfirst : k < f.width
    · rw [if_pos hfirst, bitReadCore_getLsbD _ _ hf, decide_eq_true hfirst, Bool.true_and]
    · rw [if_neg hfirst, ih _ hfs _ (by omega)]
      congr 1
      omega

/-- From a buffer that holds packed fields from bit cursor `p` on, DECODE reads these fields, cut to their widths (R160). -/
theorem getFields_eq_maskFields {b : Memory} (sch : Schema) : ∀ {p : Nat} {vals : List Word}, (∀ f ∈ sch, f.width ≤ 32) →
    (∀ k < sch.payloadBits, streamBit b (p + k) = (packFields sch vals).testBit k) → getFields b p sch = maskFields sch vals := by
  induction sch with
  | nil => intros; rfl
  | cons f fs ih =>
    intro p vals hwidth h
    obtain ⟨hf, hfs⟩ := List.forall_mem_cons.mp hwidth
    have hbits := Schema.payloadBits_cons f fs
    have hhead : bitReadCore b p f.width = BitVec.ofNat 32 ((vals.headD 0).toNat % 2 ^ f.width) := by
      refine BitVec.eq_of_getLsbD_eq fun i hi => ?_
      rw [bitReadCore_getLsbD b p hf, BitVec.getLsbD_ofNat, Nat.testBit_mod_two_pow, decide_eq_true hi, Bool.true_and, BitVec.testBit_toNat]
      by_cases hiw : i < f.width
      · rw [h i (by omega), packFields_cons_testBit, if_pos hiw]
      · rw [decide_eq_false hiw, Bool.false_and, Bool.false_and]
    have htail : getFields b (p + f.width) fs = maskFields fs vals.tail := ih hfs fun k hk => by
      have hbit := h (f.width + k) (by omega)
      rwa [packFields_cons_testBit, if_neg (by omega), Nat.add_sub_cancel_left, ← Nat.add_assoc] at hbit
    rw [getFields, maskFields, hhead, htail]

/-- The fields that DECODE reads fit in their widths. -/
theorem maskFields_getFields (b : Memory) (p : Nat) {sch : Schema} (hwidth : ∀ f ∈ sch, f.width ≤ 32) :
    maskFields sch (getFields b p sch) = getFields b p sch :=
  (getFields_eq_maskFields sch hwidth fun k hk => (packFields_getFields_testBit b sch p hwidth k hk).symm).symm

theorem length_getFields (b : Memory) (sch : Schema) : ∀ p, (getFields b p sch).length = sch.length := by
  induction sch with
  | nil => intro _; rfl
  | cons f fs ih => intro p; rw [getFields, List.length_cons, List.length_cons, ih]

theorem length_maskFields (sch : Schema) : ∀ vals, (maskFields sch vals).length = sch.length := by
  induction sch with
  | nil => intro _; rfl
  | cons f fs ih => intro vals; rw [maskFields, List.length_cons, List.length_cons, ih]

/-- The opcode that DECODE reads is the first six stream bits. -/
theorem bitReadCore_opcode {b : Memory} {op : BitVec 6} (h : ∀ k < 6, op.getLsbD k = streamBit b k) : (bitReadCore b 0 6).setWidth 6 = op := by
  refine BitVec.eq_of_getLsbD_eq fun k hk => ?_
  rw [BitVec.getLsbD_setWidth, bitReadCore_getLsbD b 0 (by decide), decide_eq_true hk, Bool.true_and, Bool.true_and, Nat.zero_add, h k hk]

/-! The stream of an image. -/

/-- Stream bit k of a byte list is bit `k mod 8` of byte `k div 8` (R12). -/
theorem streamNat_testBit (bs : List Byte) : ∀ k, (streamNat bs).testBit k = (bs.getD (k / 8) 0).getLsbD (k % 8) := by
  induction bs with
  | nil => intro k; simp [streamNat]
  | cons b bs ih =>
    intro k
    rw [streamNat, Nat.add_comm, show 256 = 2 ^ 8 from rfl, Nat.testBit_two_pow_mul_add _ b.isLt]
    split
    · rename_i hk
      rw [Nat.div_eq_of_lt hk, Nat.mod_eq_of_lt hk, List.getD_cons_zero, BitVec.testBit_toNat]
    · rw [ih, show k / 8 = (k - 8) / 8 + 1 by omega, show k % 8 = (k - 8) % 8 by omega, List.getD_cons_succ]

/-- The stream of bytes read from the start of a buffer is the buffer's. -/
theorem streamNat_readBytes_testBit (m : Memory) {n k : Nat} (h : k < n * 8) : (streamNat (m.readBytes 0 n)).testBit k = streamBit m k := by
  rw [streamNat_testBit, Memory.getD_readBytes m 0 n _ (by omega), Nat.zero_add]
  rfl

/-- Byte k of an image. -/
theorem imageBytes_getD {n k : Nat} (h : k < n) (x : Nat) : (imageBytes n x).getD k 0 = BitVec.ofNat 8 (x >>> (8 * k)) := by
  simp [imageBytes, h]

/-- An image that holds all of a stream goes on with zero bytes. -/
theorem imageBytes_getD_of_lt {n x : Nat} (hx : x < 2 ^ (8 * n)) (k : Nat) : (imageBytes n x).getD k 0 = BitVec.ofNat 8 (x >>> (8 * k)) := by
  by_cases hk : k < n
  · exact imageBytes_getD hk x
  · have hzero : x >>> (8 * k) = 0 := by
      rw [Nat.shiftRight_eq_div_pow]
      exact Nat.div_eq_of_lt (hx.trans_le (Nat.pow_le_pow_right (by omega) (by omega)))
    rw [hzero, List.getD_eq_default _ _ (by simpa using hk)]
    rfl

/-- A byte whose stream bits are those of a number. -/
theorem Memory.read_of_streamBit {m : Memory} {x a : Nat} (h : ∀ k, streamBit m k = x.testBit k) : m.read a = BitVec.ofNat 8 (x >>> (8 * a)) := by
  refine BitVec.eq_of_getLsbD_eq fun j hj => ?_
  have hbit := h (8 * a + j)
  rw [streamBit, show (8 * a + j) / 8 = a by omega, show (8 * a + j) % 8 = j by omega] at hbit
  rw [hbit, BitVec.getLsbD_ofNat, Nat.testBit_shiftRight, decide_eq_true hj, Bool.true_and]

end Sys2Proof.Machine
end

section
/-! The wire commands (spec/41_command_codec.md R143 to R153): what a registered row is like, which command OPCODE and the FIELD registers
hold, its image and its meaning, and which part of an image the decoder reads. -/

namespace Sys2Proof.Machine

/-! The registered rows. -/

/-- A row has one to six fields of at most 32 bits, and its command fits in CMD. -/
theorem schemaOf_bounds {op : BitVec 6} {sch : Schema} (h : schemaOf op = some sch) :
    0 < sch.length ∧ sch.length ≤ 6 ∧ 6 + sch.payloadBits ≤ 48 ∧ ∀ f ∈ sch, f.width ≤ 32 := by
  rcases schemaOf_rows h with ⟨-, rfl⟩ | ⟨-, rfl⟩ | ⟨-, rfl⟩ | ⟨-, rfl⟩ | ⟨-, rfl⟩ | ⟨-, rfl⟩ | ⟨-, rfl⟩ | ⟨-, rfl⟩ | ⟨-, rfl⟩ <;> decide

/-! The registers that a command leaves. -/

/-- COMMIT puts the listed values into the FIELD registers, and 0 behind them (R155). -/
theorem State.commitCommand_fields_getD {vals : List Word} (h : vals.length ≤ 6) (s : State) (op : BitVec 6) (j : Nat) :
    (s.commitCommand op vals).fields.getD j 0 = vals.getD j 0 := by
  by_cases hj : j < 6
  · interval_cases j <;> rfl
  · have hfields : (s.commitCommand op vals).fields.length = 6 := rfl
    rw [List.getD_eq_default _ _ (by omega), List.getD_eq_default _ _ (by omega)]

/-- After a wire command the registers hold it. -/
theorem exec_wire_held {i : Instr} (hi : i.isWire = true) (s : State) :
    ∃ op vals, exec i s = .next (s.commitCommand op vals) ∧ (s.commitCommand op vals).commandHeld = some i := by
  cases i
  case readBits | writeBits | encodeCommand | decodeCommand | initBridge | beginBus | stageFrame | transferFrame | tearDown => cases hi
  all_goals exact ⟨_, _, rfl, by simp [State.commandHeld]⟩

/-! The command held. -/

/-- The registers hold a command exactly where OPCODE is registered. -/
theorem State.commandHeld_of_schemaOf {s : State} {sch : Schema} (h : schemaOf s.opcode = some sch) :
    ∃ i, s.commandHeld = some i ∧ i.isWire = true := by
  rcases schemaOf_rows h with ⟨hop, -⟩ | ⟨hop, -⟩ | ⟨hop, -⟩ | ⟨hop, -⟩ | ⟨hop, -⟩ | ⟨hop, -⟩ | ⟨hop, -⟩ | ⟨hop, -⟩ | ⟨hop, -⟩ <;>
    exact ⟨_, by simp only [State.commandHeld, hop]; rfl, rfl⟩

theorem State.schemaOf_of_commandHeld {s : State} {i : Instr} (h : s.commandHeld = some i) : ∃ sch, schemaOf s.opcode = some sch := by
  unfold State.commandHeld at h
  split at h
  case h_10 => cases h
  all_goals
    rename_i hop
    exact ⟨_, by simp only [schemaOf, hop]; rfl⟩

/-- The image of the command held is its stream, in as many bytes as its bits take (R91, R144 to R152): in each row the fields stand above the
opcode as the packed fields do. -/
theorem encode_of_commandHeld {s : State} {sch : Schema} {i : Instr} (hs : schemaOf s.opcode = some sch) (h : s.commandHeld = some i) :
    encode i = .image (imageBytes (cdiv (6 + sch.payloadBits) 8) (commandStream s.opcode sch s.fields)) := by
  rcases schemaOf_rows hs with ⟨hop, rfl⟩ | ⟨hop, rfl⟩ | ⟨hop, rfl⟩ | ⟨hop, rfl⟩ | ⟨hop, rfl⟩ | ⟨hop, rfl⟩ | ⟨hop, rfl⟩ | ⟨hop, rfl⟩ | ⟨hop, rfl⟩
  all_goals
    simp only [State.commandHeld, hop] at h
    obtain rfl := Option.some.inj h
    refine congrArg Encoded.image (congrArg (imageBytes _) ?_)
    simp only [commandStream, packFields, State.fields, List.headD_cons, List.tail_cons, hop, toNat_append_eq_add, BitVec.toNat_setWidth,
      BitVec.ofNat_eq_ofNat, BitVec.toNat_ofNat]
    omega

/-- The command held loads the registers with what they hold, cut to the fields' widths (R143). -/
theorem exec_of_commandHeld {s : State} {sch : Schema} {i : Instr} (hs : schemaOf s.opcode = some sch) (h : s.commandHeld = some i) (u : State) :
    exec i u = .next (u.commitCommand s.opcode (maskFields sch s.fields)) := by
  rcases schemaOf_rows hs with ⟨hop, rfl⟩ | ⟨hop, rfl⟩ | ⟨hop, rfl⟩ | ⟨hop, rfl⟩ | ⟨hop, rfl⟩ | ⟨hop, rfl⟩ | ⟨hop, rfl⟩ | ⟨hop, rfl⟩ | ⟨hop, rfl⟩
  all_goals
    simp only [State.commandHeld, hop] at h
    obtain rfl := Option.some.inj h
    simp only [hop, maskFields, ← setWidth_setWidth_word]
    rfl

/-! The decoder of images. -/

/-- An image that the decoder accepts begins with a registered opcode and holds all bits of its row (R94, R155). -/
theorem decodeWire_ok {image : List Byte} {i : Instr} (h : decodeWire image = .ok i) :
    ∃ sch, schemaOf (BitVec.ofNat 6 (streamNat image)) = some sch ∧ 6 + sch.payloadBits ≤ image.length * 8 := by
  have sized : ∀ {total : Nat} {i' : Instr}, decodeSized (image.length * 8) total i' = .ok i → total ≤ image.length * 8 := fun h => by
    unfold decodeSized at h
    split at h
    · cases h
    · omega
  simp only [decodeWire] at h
  split at h
  · cases h
  · split at h
    case h_10 => cases h
    all_goals
      rename_i hop
      refine ⟨_, by simp only [schemaOf, BitVec.toNat_ofNat, Nat.reducePow, hop]; rfl, ?_⟩
      exact sized h

/-- A field is read from the bits below its end. -/
theorem imageField_mod (n : Nat) {p w total : Nat} (h : p + w ≤ total) : imageField (n % 2 ^ total) p w = imageField n p w := by
  refine BitVec.eq_of_getLsbD_eq fun j hj => ?_
  rw [imageField, imageField, BitVec.getLsbD_ofNat, BitVec.getLsbD_ofNat, Nat.testBit_shiftRight, Nat.testBit_shiftRight,
    Nat.testBit_mod_two_pow, decide_eq_true (show p + j < total by omega), Bool.true_and]

/-- A row whose command is taken from its bits alone answers the same for two images that agree in them. -/
theorem WireRow.congr {op : BitVec 6} {total : Nat} {mk : Nat → Instr} (hrow : WireRow op total mk)
    {image image' : List Byte} (hop : streamNat image % 64 = op.toNat) (hop' : streamNat image' % 64 = op.toNat)
    (hlen : total ≤ image.length * 8) (hlen' : total ≤ image'.length * 8)
    (hbits : streamNat image % 2 ^ total = streamNat image' % 2 ^ total)
    (hmk : ∀ n, mk (n % 2 ^ total) = mk n := by intro n; simp (disch := decide) only [imageField_mod]) : decodeWire image = decodeWire image' := by
  rw [hrow image hop hlen, hrow image' hop' hlen', ← hmk (streamNat image), hbits, hmk]

/-- The decoder reads the 6 + W bits of the opcode's row and no others (R155, R156). -/
theorem decodeWire_congr {image image' : List Byte} {sch : Schema} (hs : schemaOf (BitVec.ofNat 6 (streamNat image')) = some sch)
    (hlen : 6 + sch.payloadBits ≤ image.length * 8) (hlen' : 6 + sch.payloadBits ≤ image'.length * 8)
    (hbits : streamNat image % 2 ^ (6 + sch.payloadBits) = streamNat image' % 2 ^ (6 + sch.payloadBits)) :
    decodeWire image = decodeWire image' := by
  have hop' : streamNat image' % 64 = (BitVec.ofNat 6 (streamNat image')).toNat := by rw [BitVec.toNat_ofNat]
  have hop : streamNat image % 64 = (BitVec.ofNat 6 (streamNat image')).toNat := by
    have hdvd : (64 : Nat) ∣ 2 ^ (6 + sch.payloadBits) := Nat.pow_dvd_pow 2 (Nat.le_add_right 6 _)
    rw [← Nat.mod_mod_of_dvd _ hdvd, hbits, Nat.mod_mod_of_dvd _ hdvd, hop']
  generalize BitVec.ofNat 6 (streamNat image') = op at hs hop hop'
  rcases schemaOf_rows hs with ⟨rfl, rfl⟩ | ⟨rfl, rfl⟩ | ⟨rfl, rfl⟩ | ⟨rfl, rfl⟩ | ⟨rfl, rfl⟩ | ⟨rfl, rfl⟩ | ⟨rfl, rfl⟩ | ⟨rfl, rfl⟩ | ⟨rfl, rfl⟩
  · exact wireRow_setStripZLevel.congr hop hop' hlen hlen' hbits
  · exact wireRow_setTimingOffset.congr hop hop' hlen hlen' hbits
  · exact wireRow_setTimingScale.congr hop hop' hlen hlen' hbits
  · exact wireRow_clearMemory.congr hop hop' hlen hlen' hbits
  · exact wireRow_setZLevelQuad.congr hop hop' hlen hlen' hbits
  · exact wireRow_setPaletteColor.congr hop hop' hlen hlen' hbits
  · exact wireRow_drawZOrderPixels.congr hop hop' hlen hlen' hbits
  · exact wireRow_drawXYPixel.congr hop hop' hlen hlen' hbits
  · exact wireRow_drawRect.congr hop hop' hlen hlen' hbits

/-- The decoder reads the bytes of a wire command's encoding back. -/
theorem decodeWire_encode {i : Instr} (hi : i.isWire = true) : decodeWire (encode i).bytes = .ok i := by
  have hdecode := decode_encode_of_isWire hi
  cases i
  case readBits | writeBits | encodeCommand | decodeCommand | initBridge | beginBus | stageFrame | transferFrame | tearDown => cases hi
  all_goals exact hdecode

/-! The obligations. -/

/-- Settles O4: the encoding itself decodes to the command, and the decoder does not see the bits in which the two images differ. -/
theorem wireDecodeIgnoresLaterBits : Obligations.WireDecodeIgnoresLaterBits := by
  intro i sch image hi hs hlen hbits
  have hdecode := decodeWire_encode hi
  obtain ⟨sch', hs', hlen'⟩ := decodeWire_ok hdecode
  obtain rfl : sch = sch' := Option.some.inj (hs.symm.trans hs')
  rw [decodeWire_congr hs hlen hlen' hbits, hdecode]

/-- Settles O20: the registers hold the command afterwards, and a command that is held loads its fields cut to their widths. -/
theorem wireCommandIsHeldAfterwards : Obligations.WireCommandIsHeldAfterwards := by
  intro i s hi
  obtain ⟨op, vals, hexec, hheld⟩ := exec_wire_held hi s
  obtain ⟨sch, hs⟩ := State.schemaOf_of_commandHeld hheld
  obtain ⟨-, hlength, -, -⟩ := schemaOf_bounds hs
  refine ⟨_, sch, hexec, hheld, hs, hlength, fun j _ => ?_⟩
  have hmasked := Host.Outcome.next.inj (hexec.symm.trans (exec_of_commandHeld hs hheld s))
  rw [hmasked, State.commitCommand_fields_getD ((length_maskFields sch _).trans_le hlength), maskFields_getD]
  exact Nat.mod_lt _ (Nat.two_pow_pos _)

/-- Settles O19: each wire command commits its opcode and its fields. -/
theorem wireCommandsLoadTheirRegisters : Obligations.WireCommandsLoadTheirRegisters := by
  intro s a b c d e q p x y z
  exact ⟨rfl, rfl, rfl, rfl, rfl, rfl, rfl, rfl, rfl⟩

end Sys2Proof.Machine
end

section
/-! ENCODE and DECODE (spec/41_command_codec.md R154 to R156, R160 to R162): what each answers, check by check in the order of R233, and the
round trip through CMD. -/

namespace Sys2Proof.Machine

/-! ENCODE. -/

/-- COMMIT of ENCODE (R154): a built image, given with its bit length, goes into CMD, and its byte length into ENC_LEN. -/
def State.commitImage (s : State) (built : Memory × Nat) : State :=
  { s with cmd := s.cmd.writeBytes 0 (built.1.readBytes 0 cmdBytes), encLen := BitVec.ofNat 4 (cdiv built.2 8), err := .ok }

theorem exec_encodeCommand_of_registered {s : State} {sch : Schema} (hs : schemaOf s.opcode = some sch) :
    exec .encodeCommand s = .next (s.commitImage (buildImage s.opcode sch s.fields)) := by
  simp only [exec, execEncode, hs]
  rfl

theorem exec_encodeCommand_of_unregistered {s : State} (hs : schemaOf s.opcode = none) :
    exec .encodeCommand s = .next (s.raise .unknownOpcode) := by
  simp only [exec, execEncode, hs]

/-- CMD after COMMIT: the built image in its 8 bytes, and what was behind them. -/
theorem State.commitImage_cmd_read {s : State} (hwf : s.cmd.wf = true) (built : Memory × Nat) (k : Nat) :
    (s.commitImage built).cmd.read k = if k < 8 then built.1.read k else s.cmd.read k := by
  have hread := Memory.read_writeBytes (built.1.readBytes 0 cmdBytes) 0 k hwf
  rw [Memory.length_readBytes, cmdBytes, Nat.zero_add, Nat.sub_zero] at hread
  refine hread.trans ?_
  by_cases hk : k < 8
  · rw [if_pos ⟨Nat.zero_le k, hk⟩, if_pos hk, Memory.getD_readBytes _ _ _ _ hk, Nat.zero_add]
  · rw [if_neg (by omega), if_neg hk]

/-- CMD after ENCODE holds the command's stream, bit by bit. -/
theorem State.commitImage_cmd_streamBit {s : State} {sch : Schema} (hs : schemaOf s.opcode = some sch) (hwf : s.cmd.wf = true) {k : Nat}
    (hk : k < 64) :
    streamBit (s.commitImage (buildImage s.opcode sch s.fields)).cmd k = (commandStream s.opcode sch s.fields).testBit k := by
  obtain ⟨-, -, -, hwidth⟩ := schemaOf_bounds hs
  rw [← buildImage_streamBit hwidth, streamBit, streamBit, State.commitImage_cmd_read hwf, if_pos (by omega)]

/-- ENC_LEN after ENCODE is the byte length of the row's command (R37). -/
theorem State.commitImage_encLen {s : State} {sch : Schema} (hs : schemaOf s.opcode = some sch) (vals : List Word) :
    (s.commitImage (buildImage s.opcode sch vals)).encLen.toNat = cdiv (6 + sch.payloadBits) 8 := by
  obtain ⟨-, -, hbits, -⟩ := schemaOf_bounds hs
  simp only [State.commitImage, buildImage_bits, BitVec.toNat_ofNat, cdiv]
  omega

/-! DECODE: the checks in the order of R233, and then the command. -/

section
variable {s : State} {buf : Buffer}

theorem exec_decodeCommand_notReady (ha : ¬ s.allocated buf) : exec (.decodeCommand buf) s = .next (s.raise .notReady) := by
  simp only [exec, execDecode, State.resolveBuffer_of_not_allocated ha]

theorem exec_decodeCommand_outOfBounds (ha : s.allocated buf) (hlen : s.bufferSize buf < s.len.toNat) :
    exec (.decodeCommand buf) s = .next (s.raise .outOfBounds) := by
  simp only [exec, execDecode, State.resolveBuffer_of_allocated ha]
  rw [if_pos hlen]

theorem exec_decodeCommand_noOpcode (ha : s.allocated buf) (hlen : s.len.toNat ≤ s.bufferSize buf) (hzero : s.len.toNat = 0) :
    exec (.decodeCommand buf) s = .next (s.raise .truncatedBuffer) := by
  simp only [exec, execDecode, State.resolveBuffer_of_allocated ha]
  rw [if_neg (by omega), if_pos (by omega)]

variable {op : BitVec 6} (ha : s.allocated buf) (hlen : s.len.toNat ≤ s.bufferSize buf) (hpos : 1 ≤ s.len.toNat)
  (hop : (bitReadCore (s.buffer buf) 0 6).setWidth 6 = op)
include ha hlen hpos hop

theorem exec_decodeCommand_unknownOpcode (hs : schemaOf op = none) : exec (.decodeCommand buf) s = .next (s.raise .unknownOpcode) := by
  simp only [exec, execDecode, State.resolveBuffer_of_allocated ha, hop, hs]
  rw [if_neg (by omega), if_neg (by omega)]

variable {sch : Schema} (hs : schemaOf op = some sch)
include hs

theorem exec_decodeCommand_truncated (hbits : s.len.toNat * 8 < 6 + sch.payloadBits) :
    exec (.decodeCommand buf) s = .next (s.raise .truncatedBuffer) := by
  simp only [exec, execDecode, State.resolveBuffer_of_allocated ha, hop, hs]
  rw [if_neg (by omega), if_neg (by omega), if_pos hbits]

theorem exec_decodeCommand_of_fits (hbits : 6 + sch.payloadBits ≤ s.len.toNat * 8) :
    exec (.decodeCommand buf) s = .next (s.commitCommand op (getFields (s.buffer buf) 6 sch)) := by
  simp only [exec, execDecode, State.resolveBuffer_of_allocated ha, hop, hs]
  rw [if_neg (by omega), if_neg (by omega), if_neg (by omega)]

end

/-! The image in the buffer. -/

/-- The stream of the LEN bytes that DECODE sees is that of the command it reads from them, as far as the command goes. -/
theorem commandStream_getFields_mod {b : Memory} {n : Nat} {op : BitVec 6} {sch : Schema} (hop : (bitReadCore b 0 6).setWidth 6 = op)
    (hwidth : ∀ f ∈ sch, f.width ≤ 32) (hbits : 6 + sch.payloadBits ≤ n * 8)
    {vals : List Word} (hvals : ∀ j, vals.getD j 0 = (getFields b 6 sch).getD j 0) :
    commandStream op sch vals = streamNat (b.readBytes 0 n) % 2 ^ (6 + sch.payloadBits) := by
  refine Nat.eq_of_testBit_eq fun k => ?_
  rw [Nat.testBit_mod_two_pow]
  by_cases hk : k < 6 + sch.payloadBits
  · rw [decide_eq_true hk, Bool.true_and, streamNat_readBytes_testBit b (by omega), commandStream_testBit, packFields_congr sch hvals]
    by_cases h6 : k < 6
    · rw [if_pos h6, ← hop, BitVec.getLsbD_setWidth, bitReadCore_getLsbD b 0 (by decide), decide_eq_true h6, Bool.true_and, Bool.true_and,
        Nat.zero_add]
    · rw [if_neg h6, packFields_getFields_testBit b sch 6 hwidth _ (by omega), Nat.add_sub_cancel' (by omega)]
  · have hpast := (commandStream_lt op sch vals).trans_le (Nat.pow_le_pow_right Nat.two_pos (Nat.le_of_not_lt hk))
    rw [decide_eq_false hk, Bool.false_and, Nat.testBit_lt_two_pow hpast]

/-- The opcode that the decoder of images sees in the LEN bytes is the one that DECODE reads. -/
theorem opcode_of_readBytes (b : Memory) {n : Nat} (hn : 1 ≤ n) :
    (bitReadCore b 0 6).setWidth 6 = BitVec.ofNat 6 (streamNat (b.readBytes 0 n)) := by
  refine bitReadCore_opcode fun k hk => ?_
  rw [BitVec.getLsbD_ofNat, decide_eq_true hk, Bool.true_and, streamNat_readBytes_testBit b (by omega)]

/-- A command that the registers hold is the one of every image that begins with its stream. -/
theorem decodeWire_of_commandHeld {t : State} {sch : Schema} {i : Instr} {image : List Byte} (hs : schemaOf t.opcode = some sch)
    (h : t.commandHeld = some i) (hi : i.isWire = true) (hlen : 6 + sch.payloadBits ≤ image.length * 8)
    (hbits : streamNat image % 2 ^ (6 + sch.payloadBits) = commandStream t.opcode sch t.fields) : decodeWire image = .ok i := by
  have hlt := commandStream_lt t.opcode sch t.fields
  have hstream : streamNat (encode i).bytes = commandStream t.opcode sch t.fields := by
    rw [encode_of_commandHeld hs h, Encoded.bytes, streamNat_imageBytes]
    refine Nat.mod_eq_of_lt (hlt.trans_le (Nat.pow_le_pow_right Nat.two_pos ?_))
    rw [cdiv]
    omega
  refine wireDecodeIgnoresLaterBits i sch image hi ?_ hlen ?_
  · rw [hstream, commandStream, ← hs]
    congr 1
    apply BitVec.eq_of_toNat_eq
    rw [BitVec.toNat_ofNat]
    omega
  · rw [hbits, hstream, Nat.mod_eq_of_lt hlt]

/-- After DECODE's commit the registers hold the command that the decoder of images finds in the LEN bytes, and that command's own effect is
the same commit (R155). -/
theorem commitCommand_getFields (s : State) {b : Memory} {n : Nat} {op : BitVec 6} {sch : Schema} (hop : (bitReadCore b 0 6).setWidth 6 = op)
    (hs : schemaOf op = some sch) (hbits : 6 + sch.payloadBits ≤ n * 8) :
    ∃ i, (s.commitCommand op (getFields b 6 sch)).commandHeld = some i ∧ decodeWire (b.readBytes 0 n) = .ok i ∧
      exec i s = .next (s.commitCommand op (getFields b 6 sch)) := by
  obtain ⟨-, hlength, -, hwidth⟩ := schemaOf_bounds hs
  have hfields := State.commitCommand_fields_getD ((length_getFields b sch 6).trans_le hlength) s op
  have hstream := commandStream_getFields_mod hop hwidth hbits hfields
  obtain ⟨i, hheld, hi⟩ := State.commandHeld_of_schemaOf (s := s.commitCommand op (getFields b 6 sch)) hs
  refine ⟨i, hheld, decodeWire_of_commandHeld hs hheld hi (by rwa [Memory.length_readBytes]) hstream.symm, ?_⟩
  rw [exec_of_commandHeld hs hheld, maskFields_congr sch hfields, maskFields_getFields _ _ hwidth, State.commitCommand_opcode]

/-! The obligations. -/

/-- Settles O14: CMD takes the command's stream, and the encoding is that stream, in ENC_LEN bytes. -/
theorem encodeLeavesTheCommandImage : Obligations.EncodeLeavesTheCommandImage := by
  intro s i hheld hwf
  obtain ⟨sch, hs⟩ := State.schemaOf_of_commandHeld hheld
  obtain ⟨-, -, -, hwidth⟩ := schemaOf_bounds hs
  refine ⟨_, _, exec_encodeCommand_of_registered hs, ?_, fun k hk => ?_, fun k hk => ?_⟩
  · rw [encode_of_commandHeld hs hheld, Encoded.bytes, length_imageBytes]
    exact State.commitImage_encLen hs _
  · have hfits := (commandStream_lt s.opcode sch s.fields).trans_le
      (Nat.pow_le_pow_right Nat.two_pos (show 6 + sch.payloadBits ≤ 8 * cdiv (6 + sch.payloadBits) 8 by rw [cdiv]; omega))
    rw [encode_of_commandHeld hs hheld, Encoded.bytes, imageBytes_getD_of_lt hfits, ← Memory.read_of_streamBit (buildImage_streamBit hwidth _ _)]
    exact (State.commitImage_cmd_read hwf _ k).trans (if_pos hk)
  · exact (State.commitImage_cmd_read hwf _ k).trans (if_neg (by omega))

/-- Settles O15: an unregistered opcode has no row, and ENCODE raises. -/
theorem encodeOfUnregisteredOpcodeFails : Obligations.EncodeOfUnregisteredOpcodeFails :=
  fun _ h => exec_encodeCommand_of_unregistered (schemaOf_unregistered h)

/-- Settles O16: the image is long enough for its row, so DECODE commits, and what it commits is the image's command. -/
theorem decodePerformsTheWireCommand : Obligations.DecodePerformsTheWireCommand := by
  intro buf s i ha hlen hdecode
  obtain ⟨sch, hs, hbits⟩ := decodeWire_ok hdecode
  rw [Memory.length_readBytes] at hbits
  have hpos : 1 ≤ s.len.toNat := by omega
  rw [← opcode_of_readBytes (s.buffer buf) hpos] at hs
  obtain ⟨i', hheld, hdecode', hexec⟩ := commitCommand_getFields s rfl hs hbits
  obtain rfl : i = i' := Decoded.ok.inj (hdecode.symm.trans hdecode')
  exact ⟨_, exec_decodeCommand_of_fits ha hlen hpos rfl hs hbits, hexec, hheld, rfl⟩

/-- Settles O17: the checks in their order; the opcode is the six stream bits at the start of the buffer. -/
theorem decodeReportsItsFirstError : Obligations.DecodeReportsItsFirstError := by
  intro buf s op hbits
  have hop := bitReadCore_opcode hbits
  exact ⟨exec_decodeCommand_notReady, exec_decodeCommand_outOfBounds, exec_decodeCommand_noOpcode,
    fun ha hlen hpos hreg => exec_decodeCommand_unknownOpcode ha hlen hpos hop (schemaOf_unregistered hreg),
    fun sch ha hlen hpos hs hshort => exec_decodeCommand_truncated ha hlen hpos hop hs hshort⟩

/-- ENCODE, a LEN that covers the image, DECODE CMD: the opcode comes back, and the fields cut to their widths. -/
theorem exec_decodeCommand_commitImage {s : State} {sch : Schema} (hs : schemaOf s.opcode = some sch) (hwf : s.cmd.wf = true) {l : Word}
    (hlo : 6 + sch.payloadBits ≤ l.toNat * 8) (hhi : l.toNat ≤ 8) {t : State}
    (ht : t = { s.commitImage (buildImage s.opcode sch s.fields) with len := l }) :
    exec (.decodeCommand .cmd) t = .next (t.commitCommand s.opcode (maskFields sch s.fields)) := by
  obtain ⟨-, -, hsize, hwidth⟩ := schemaOf_bounds hs
  have hstream : ∀ k < 64, streamBit t.cmd k = (commandStream s.opcode sch s.fields).testBit k := fun k hk => by
    rw [ht]
    exact State.commitImage_cmd_streamBit hs hwf hk
  have hlen : t.len = l := by rw [ht]
  have hop : (bitReadCore t.cmd 0 6).setWidth 6 = s.opcode := bitReadCore_opcode fun k hk => by
    rw [hstream k (by omega), commandStream_testBit, if_pos hk]
  have hfields : getFields t.cmd 6 sch = maskFields sch s.fields := getFields_eq_maskFields sch hwidth fun k hk => by
    rw [hstream _ (by omega), commandStream_testBit, if_neg (by omega), Nat.add_sub_cancel_left]
  rw [← hfields]
  rw [← hlen] at hlo hhi
  exact exec_decodeCommand_of_fits (.inl rfl) hhi (by omega) hop hs hlo

/-- Settles O18: DECODE reads ENCODE's stream back, and a masked field is its value modulo 2 to its width. -/
theorem encodeThenDecodeKeepsTheFields : Obligations.EncodeThenDecodeKeepsTheFields := by
  intro s sch hs hwf
  obtain ⟨-, hlength, -, -⟩ := schemaOf_bounds hs
  refine ⟨_, exec_encodeCommand_of_registered hs, fun l hlo hhi => ?_⟩
  rw [State.commitImage_encLen hs, cdiv] at hlo
  refine ⟨_, exec_decodeCommand_commitImage hs hwf (by omega) hhi rfl, rfl, fun j _ => ?_⟩
  rw [State.commitCommand_fields_getD ((length_maskFields sch _).trans_le hlength)]
  have hmasked := maskFields_getD sch s.fields j
  refine ⟨?_, fun _ hfits => BitVec.eq_of_toNat_eq (hmasked.trans (Nat.mod_eq_of_lt hfits))⟩
  by_cases hj : j < sch.length
  · rw [hmasked, if_pos hj]
  · rw [hmasked, if_neg hj, Schema.widthAt_of_length_le (by omega), Nat.pow_zero, Nat.mod_one]

end Sys2Proof.Machine
end

section
/-! The serializer's state machine (spec/41_command_codec.md R157 to R159; spec/70_reset_and_hazards.md R275): what a run to IDLE visits and leaves,
the field loops of both paths, and the paths themselves, one row of the tables after another. -/

namespace Sys2Proof.Machine

/-! Runs to IDLE. -/

/-- Following `row` from `c`, the machine visits `k` states before IDLE and leaves the host-visible state `t`. -/
inductive HaltsIn (row : Serializing → Serializing) : Serializing → Nat → State → Prop where
  | idle {c : Serializing} (h : c.ser.state = .idle) : HaltsIn row c 0 c.host
  | step {c : Serializing} {k : Nat} {t : State} (h : c.ser.state ≠ .idle) (rest : HaltsIn row (row c) k t) : HaltsIn row c (k + 1) t

/-- A run that halts within the fuel is what `serRun` answers. -/
theorem HaltsIn.serRun {row : Serializing → Serializing} {c : Serializing} {k : Nat} {t : State} (h : HaltsIn row c k t) :
    ∀ {fuel : Nat}, k ≤ fuel →
    (serRun row fuel c).1 = k ∧ (serRun row fuel c).2.host = t ∧ (serRun row fuel c).2.ser.state = .idle := by
  induction h with
  | idle hidle =>
    intro fuel _
    cases fuel with
    | zero => exact ⟨rfl, rfl, hidle⟩
    | succ fuel => rw [Machine.serRun, if_pos hidle]; exact ⟨rfl, rfl, hidle⟩
  | step hbusy _ ih =>
    intro fuel hfuel
    cases fuel with
    | zero => omega
    | succ fuel =>
      obtain ⟨hcount, hhost, hidle⟩ := ih (Nat.le_of_succ_le_succ hfuel)
      rw [Machine.serRun, if_neg hbusy]
      exact ⟨congrArg (· + 1) hcount, hhost, hidle⟩

/-- The remaining fields from position `j` on begin with field `j`, where there is one. -/
theorem Schema.widthAt_of_drop {sch : Schema} {j : Nat} {f : FieldSpec} {fs : Schema} (h : sch.drop j = f :: fs) :
    j < sch.length ∧ sch.widthAt j = f.width ∧ sch.drop (j + 1) = fs := by
  have hj : j < sch.length := by
    by_contra hle
    rw [List.drop_eq_nil_of_le (by omega)] at h
    cases h
  obtain ⟨hhead, htail⟩ := List.cons.inj ((List.drop_eq_getElem_cons hj).symm.trans h)
  refine ⟨hj, ?_, htail⟩
  simp [Schema.widthAt, hj, hhead]

/-! The encode path (R158). -/

/-- FAIL of the encode path raises. -/
theorem encode_haltsIn_fail (r : Serializer) (s : State) (st : Status) :
    HaltsIn Serializing.encodeRow ⟨{ r with state := .fail st }, s⟩ 1 (s.raise st) :=
  .step (by simp) (.idle rfl)

/-- The field loop of the encode path: from field `j` on it writes what ENCODE's field loop writes, and COMMIT stores it. -/
theorem encode_haltsIn_putFields (s : State) (rest : Schema) : ∀ (r : Serializer) (j : Nat), r.sch.drop j = rest →
    HaltsIn Serializing.encodeRow ⟨{ r with state := if j < r.sch.length then .putFld j else .commit }, s⟩ (rest.length + 1)
      (s.commitImage (putFields r.img r.p rest (s.fields.drop j))) := by
  induction rest with
  | nil =>
    intro r j hrest
    rw [if_neg (Nat.not_lt.mpr (List.drop_eq_nil_iff.mp hrest))]
    exact .step (by simp) (.idle rfl)
  | cons f fs ih =>
    intro r j hrest
    obtain ⟨hj, hwidth, htail⟩ := Schema.widthAt_of_drop hrest
    have hhead : (s.fields.drop j).headD 0 = s.fields.getD j 0 := by simp [List.headD_eq_head?_getD]
    have hloop := ih { r with img := bitWriteCore r.img r.p (r.sch.widthAt j) (s.fields.getD j 0), p := r.p + r.sch.widthAt j, j := j + 1 } (j + 1) htail
    rw [if_pos hj, putFields, hhead, List.tail_drop, ← hwidth]
    exact .step (by simp) hloop

/-- The encode path with a registered opcode visits n + 4 states: LOOKUP, CLEAR, PUT_OPC, the fields, COMMIT. -/
theorem encode_haltsIn_registered (left : Serializer) {s : State} {sch : Schema} (hs : schemaOf s.opcode = some sch) :
    HaltsIn Serializing.encodeRow (Serializing.issueEncode ⟨left.idle, s⟩) (sch.length + 4) (s.commitImage (buildImage s.opcode sch s.fields)) := by
  have hlookup : (Serializing.issueEncode ⟨left.idle, s⟩).encodeRow = ⟨{ left with op := s.opcode, sch := sch, state := .clear }, s⟩ := by
    simp only [Serializing.issueEncode, Serializing.encodeRow, Serializer.idle, hs]
  refine .step (by simp [Serializing.issueEncode]) ?_
  rw [hlookup]
  refine .step (by simp) (.step (by simp [Serializing.encodeRow]) ?_)
  exact encode_haltsIn_putFields s sch
    { left with op := s.opcode, sch := sch, img := bitWriteCore Memory.zero 0 6 (s.opcode.setWidth 32), p := 6, j := 0 } 0 List.drop_zero

/-- With an unregistered one it ends in FAIL. -/
theorem encode_haltsIn_unregistered (left : Serializer) {s : State} (hs : schemaOf s.opcode = none) :
    HaltsIn Serializing.encodeRow (Serializing.issueEncode ⟨left.idle, s⟩) 2 (s.raise .unknownOpcode) := by
  have hlookup : (Serializing.issueEncode ⟨left.idle, s⟩).encodeRow = ⟨{ left with op := s.opcode, state := .fail .unknownOpcode }, s⟩ := by
    simp only [Serializing.issueEncode, Serializing.encodeRow, Serializer.idle, hs]
  refine .step (by simp [Serializing.issueEncode]) ?_
  rw [hlookup]
  exact encode_haltsIn_fail { left with op := s.opcode } s _

/-- Settles O21: by whether OPCODE is registered, the path ends where ENCODE does. -/
theorem encodePathComputesEncode : Obligations.EncodePathComputesEncode := by
  intro left s
  cases hs : schemaOf s.opcode with
  | none =>
    obtain ⟨-, hhost, hidle⟩ := (encode_haltsIn_unregistered left hs).serRun (fuel := serFuel) (by decide)
    exact ⟨_, exec_encodeCommand_of_unregistered hs, hhost, hidle, fun _ h => nomatch h⟩
  | some sch =>
    obtain ⟨-, hlength, -, -⟩ := schemaOf_bounds hs
    obtain ⟨hcount, hhost, hidle⟩ := (encode_haltsIn_registered left hs).serRun (fuel := serFuel) (by rw [serFuel]; omega)
    refine ⟨_, exec_encodeCommand_of_registered hs, hhost, hidle, fun _ h => ?_⟩
    rw [← Option.some.inj h]
    exact hcount

/-! The decode path (R159). -/

/-- FAIL of the decode path raises. -/
theorem decode_haltsIn_fail (r : Serializer) (s : State) (st : Status) :
    HaltsIn Serializing.decodeRow ⟨{ r with state := .fail st }, s⟩ 1 (s.raise st) :=
  .step (by simp) (.idle rfl)

/-- GET_FLD(j) puts v_j behind v_0 to v_(j-1). -/
theorem take_toList_setIfInBounds {j : Nat} (hj : j < 6) (v : Vector Word 6) (x : Word) :
    (v.setIfInBounds j x).toList.take (j + 1) = v.toList.take j ++ [x] := by
  have hlength : v.toList.length = 6 := v.length_toList
  rw [Vector.toList_setIfInBounds, List.take_add_one, List.take_set, List.set_eq_of_length_le (by simp), List.getElem?_set_self (by omega)]
  rfl

/-- The field loop of the decode path: from field `j` on it reads what DECODE's field loop reads, and COMMIT takes the n values. -/
theorem decode_haltsIn_getFields (s : State) (rest : Schema) : ∀ (r : Serializer) (j : Nat), r.sch.drop j = rest → j ≤ r.sch.length →
    r.sch.length ≤ 6 →
    HaltsIn Serializing.decodeRow ⟨{ r with state := if j < r.sch.length then .getFld j else .commit }, s⟩ (rest.length + 1)
      (s.commitCommand r.op (r.v.toList.take j ++ getFields r.buf r.p rest)) := by
  induction rest with
  | nil =>
    intro r j hrest hle _
    have hj : j = r.sch.length := Nat.le_antisymm hle (List.drop_eq_nil_iff.mp hrest)
    rw [if_neg (by omega), getFields, List.append_nil, hj]
    exact .step (by simp) (.idle rfl)
  | cons f fs ih =>
    intro r j hrest _ hlength
    obtain ⟨hj, hwidth, htail⟩ := Schema.widthAt_of_drop hrest
    have hloop := ih
      { r with v := r.v.setIfInBounds j (bitReadCore r.buf r.p (r.sch.widthAt j)), p := r.p + r.sch.widthAt j, j := j + 1 } (j + 1) htail hj hlength
    simp only [take_toList_setIfInBounds (hj.trans_le hlength), List.append_assoc, List.singleton_append] at hloop
    rw [if_pos hj, getFields, ← hwidth]
    exact .step (by simp) hloop

/-- The operand of an unallocated buffer ends the path in FAIL. -/
theorem decode_haltsIn_notReady (left : Serializer) {s : State} {buf : Buffer} (ha : ¬ s.allocated buf) :
    HaltsIn Serializing.decodeRow (Serializing.issueDecode ⟨left.idle, s⟩ buf) 1 (s.raise .notReady) := by
  simp only [Serializing.issueDecode, State.resolveBuffer_of_not_allocated ha]
  exact decode_haltsIn_fail left.idle s _

/-- The serializer after GET_LEN, in the given state. -/
def Serializer.afterGetLen (left : Serializer) (s : State) (buf : Buffer) (state : SerState) : Serializer :=
  { left with buf := s.buffer buf, size := s.bufferSize buf, len := s.len.toNat, state := state }

/-- An allocated buffer leads to GET_LEN, and from there where its two checks lead. -/
theorem decode_haltsIn_getLen (left : Serializer) {s : State} {buf : Buffer} (ha : s.allocated buf) {state : SerState} {k : Nat} {t : State}
    (hstate : (if s.bufferSize buf < s.len.toNat then .fail .outOfBounds else if s.len.toNat * 8 < 6 then .fail .truncatedBuffer else .getOpc)
      = state)
    (h : HaltsIn Serializing.decodeRow ⟨left.afterGetLen s buf state, s⟩ k t) :
    HaltsIn Serializing.decodeRow (Serializing.issueDecode ⟨left.idle, s⟩ buf) (k + 1) t := by
  simp only [Serializing.issueDecode, State.resolveBuffer_of_allocated ha]
  refine .step (by simp) ?_
  rw [← hstate] at h
  exact h

/-- GET_OPC and LOOKUP, for an opcode without a row. -/
theorem decode_haltsIn_unregistered (r : Serializer) (s : State) (hs : schemaOf ((bitReadCore r.buf 0 6).setWidth 6) = none) :
    HaltsIn Serializing.decodeRow ⟨{ r with state := .getOpc }, s⟩ 3 (s.raise .unknownOpcode) := by
  refine .step (by simp) (.step (by simp [Serializing.decodeRow]) ?_)
  simp only [Serializing.decodeRow, hs]
  exact decode_haltsIn_fail { r with op := (bitReadCore r.buf 0 6).setWidth 6, p := 6 } s _

section
variable (r : Serializer) (s : State) {sch : Schema} (hs : schemaOf ((bitReadCore r.buf 0 6).setWidth 6) = some sch)
include hs

/-- GET_OPC, LOOKUP and CHECK_TOTAL, for a command that LEN cuts short. -/
theorem decode_haltsIn_truncated (hbits : r.len * 8 < 6 + sch.payloadBits) :
    HaltsIn Serializing.decodeRow ⟨{ r with state := .getOpc }, s⟩ 4 (s.raise .truncatedBuffer) := by
  refine .step (by simp) (.step (by simp [Serializing.decodeRow]) ?_)
  simp only [Serializing.decodeRow, hs]
  refine .step (by simp) ?_
  simp only [Serializing.decodeRow, if_pos hbits]
  exact decode_haltsIn_fail { r with op := (bitReadCore r.buf 0 6).setWidth 6, p := 6, sch := sch, j := 0 } s _

/-- GET_OPC, LOOKUP, CHECK_TOTAL, the fields and COMMIT, for a command that is all there: n + 4 states. -/
theorem decode_haltsIn_fits (hbits : 6 + sch.payloadBits ≤ r.len * 8) :
    HaltsIn Serializing.decodeRow ⟨{ r with state := .getOpc }, s⟩ (sch.length + 4)
      (s.commitCommand ((bitReadCore r.buf 0 6).setWidth 6) (getFields r.buf 6 sch)) := by
  obtain ⟨hpos, hlength, -, -⟩ := schemaOf_bounds hs
  have hloop := decode_haltsIn_getFields s sch
    { r with op := (bitReadCore r.buf 0 6).setWidth 6, p := 6, sch := sch, j := 0 } 0 List.drop_zero (Nat.zero_le _) hlength
  refine .step (by simp) (.step (by simp [Serializing.decodeRow]) ?_)
  simp only [Serializing.decodeRow, hs]
  refine .step (by simp) ?_
  simp only [Serializing.decodeRow, if_neg (Nat.not_lt.mpr hbits)]
  simp only [if_pos hpos] at hloop
  exact hloop

end

/-- The decode path takes DECODE's branches: it ends where DECODE does, after at most 11 states, and after n + 5 on success. -/
theorem decode_haltsIn (left : Serializer) (buf : Buffer) (s : State) :
    ∃ k t, exec (.decodeCommand buf) s = .next t ∧ HaltsIn Serializing.decodeRow (Serializing.issueDecode ⟨left.idle, s⟩ buf) k t ∧ k ≤ serFuel ∧
      (t.err = .ok → ∃ sch, schemaOf t.opcode = some sch ∧ k = sch.length + 5) := by
  by_cases ha : s.allocated buf
  swap
  · exact ⟨1, _, exec_decodeCommand_notReady ha, decode_haltsIn_notReady left ha, by decide, fun h => nomatch h⟩
  by_cases hlen : s.bufferSize buf < s.len.toNat
  · exact ⟨2, _, exec_decodeCommand_outOfBounds ha hlen,
      decode_haltsIn_getLen left ha (if_pos hlen) (decode_haltsIn_fail (left.afterGetLen s buf .idle) s _), by decide, fun h => nomatch h⟩
  have hle : s.len.toNat ≤ s.bufferSize buf := Nat.not_lt.mp hlen
  by_cases hzero : s.len.toNat = 0
  · exact ⟨2, _, exec_decodeCommand_noOpcode ha hle hzero,
      decode_haltsIn_getLen left ha ((if_neg hlen).trans (if_pos (by omega))) (decode_haltsIn_fail (left.afterGetLen s buf .idle) s _), by decide,
      fun h => nomatch h⟩
  have hpos : 1 ≤ s.len.toNat := Nat.one_le_iff_ne_zero.mpr hzero
  have hgetOpc := fun k t => decode_haltsIn_getLen (k := k) (t := t) left ha ((if_neg hlen).trans (if_neg (by omega)))
  cases hs : schemaOf ((bitReadCore (s.buffer buf) 0 6).setWidth 6) with
  | none =>
    exact ⟨4, _, exec_decodeCommand_unknownOpcode ha hle hpos rfl hs,
      hgetOpc _ _ (decode_haltsIn_unregistered (left.afterGetLen s buf .idle) s hs), by decide, fun h => nomatch h⟩
  | some sch =>
    by_cases hbits : s.len.toNat * 8 < 6 + sch.payloadBits
    · exact ⟨5, _, exec_decodeCommand_truncated ha hle hpos rfl hs hbits,
        hgetOpc _ _ (decode_haltsIn_truncated (left.afterGetLen s buf .idle) s hs hbits), by decide, fun h => nomatch h⟩
    · have hfits := Nat.not_lt.mp hbits
      obtain ⟨-, hlength, -, -⟩ := schemaOf_bounds hs
      exact ⟨sch.length + 5, _, exec_decodeCommand_of_fits ha hle hpos rfl hs hfits,
        hgetOpc _ _ (decode_haltsIn_fits (left.afterGetLen s buf .idle) s hs hfits), by rw [serFuel]; omega, fun _ => ⟨sch, hs, rfl⟩⟩

/-- Settles O22: the path halts within the fuel where DECODE ends. -/
theorem decodePathComputesDecode : Obligations.DecodePathComputesDecode := by
  intro left buf s
  obtain ⟨k, t, hexec, hhalts, hfuel, hsuccess⟩ := decode_haltsIn left buf s
  obtain ⟨hcount, hhost, hidle⟩ := hhalts.serRun hfuel
  refine ⟨t, hexec, hhost, hidle, fun sch hok hs => ?_⟩
  obtain ⟨sch', hs', rfl⟩ := hsuccess hok
  rw [Option.some.inj (hs.symm.trans hs')]
  exact hcount

end Sys2Proof.Machine
end

section
/-! What the role decides (spec/00_scope.md R7; spec/42_bridge.md R186 to R189, R196, R198): what INIT latches and forwards, what STAGE draws and
consumes, and what a transfer does to TMO and the select line, on a Master and on a Slave. -/

namespace Sys2Proof.Machine

section
variable {s : State} (hr : s.build.role = .master)
include hr

/-- A Master latches every CFG register (R54). -/
theorem State.configToLatch_master :
    s.configToLatch = ⟨s.cfgCap, s.cfgQdepth, s.cfgMode, s.cfgFreq, s.cfgSelpin, s.cfgBindAddr, s.cfgBindPort⟩ := by
  simp only [State.configToLatch, State.masterOnly_master hr]

/-- A Master forwards to the peripheral, then to the ingress source (R186). -/
theorem initPorts_master : initPorts s = .bindIngress s.cfgBindAddr s.cfgBindPort ::
    .configurePeripheral s.cfgMode s.cfgCap s.cfgQdepth (some (s.cfgFreq, s.cfgSelpin)) :: s.env.ports := by
  simp only [initPorts, hr]

theorem State.ingressDraw_master : s.ingressDraw = s.env.ingress.headD [] := by simp only [State.ingressDraw, hr]

theorem State.consumeIngress_master : s.consumeIngress = { s with env := { s.env with ingress := s.env.ingress.tail } } := by
  simp only [State.consumeIngress, hr]

theorem State.latchTimeout_master : s.latchTimeout = some s.timeout := by simp only [State.latchTimeout, hr]

theorem State.select_master : s.select = true := by simp only [State.select, hr]

theorem State.deselect_master : s.deselect = false := by simp only [State.deselect, hr]

end

section
variable {s : State} (hr : s.build.role = .slave)
include hr

/-- On a Slave the Master-only registers are latched as 0 (R24, R54). -/
theorem State.configToLatch_slave : s.configToLatch = ⟨s.cfgCap, s.cfgQdepth, s.cfgMode, 0, 0, 0, 0⟩ := by
  simp only [State.configToLatch, State.masterOnly_slave hr]

/-- A Slave forwards to the peripheral alone (R186). -/
theorem initPorts_slave : initPorts s = .configurePeripheral s.cfgMode s.cfgCap s.cfgQdepth none :: s.env.ports := by
  simp only [initPorts, hr]

theorem State.ingressDraw_slave : s.ingressDraw = [] := by simp only [State.ingressDraw, hr]

theorem State.consumeIngress_slave : s.consumeIngress = s := by simp only [State.consumeIngress, hr]

theorem State.latchTimeout_slave : s.latchTimeout = none := by simp only [State.latchTimeout, hr]

theorem State.select_slave : s.select = s.sel := by simp only [State.select, hr]

theorem State.deselect_slave : s.deselect = s.sel := by simp only [State.deselect, hr]

end

end Sys2Proof.Machine
end

section
/-! The operations of the frame bridge (spec/42_bridge.md R181 to R196): what each answers in each bridge state. -/

namespace Sys2Proof.Machine

/-! INIT, BEGIN and TEARDOWN. -/

theorem exec_initBridge_of_uninitialized {s : State} (hb : s.bridge = .uninitialized) :
    exec .initBridge s = .next
      { s with latched := s.configToLatch, send := s.send.zeroFill s.build.cMax, recv := s.recv.zeroFill s.build.cMax, staged := false,
               ingressLen := 0, bridge := .initialized, err := .ok, env := { s.env with ports := initPorts s } } := by
  obtain ⟨t, h⟩ := exec_answers .initBridge s
  obtain ⟨hne, -⟩ | ⟨-, rfl⟩ := execInit_cases h
  · exact absurd hb hne
  · exact h

theorem exec_initBridge_of_not_uninitialized {s : State} (hb : s.bridge ≠ .uninitialized) :
    exec .initBridge s = .next (s.raise .alreadyInitialized) := by
  obtain ⟨t, h⟩ := exec_answers .initBridge s
  obtain ⟨-, rfl⟩ | ⟨he, -⟩ := execInit_cases h
  · exact h
  · exact absurd he hb

theorem exec_beginBus_of_uninitialized {s : State} (hb : s.bridge = .uninitialized) : exec .beginBus s = .next (s.raise .notReady) := by
  simp only [exec, execBegin, hb]

theorem exec_beginBus_of_initialized {s : State} (hb : s.bridge = .initialized) :
    exec .beginBus s = .next ({ s with bridge := .ready, err := .ok }.emit .beginOut) := by
  simp only [exec, execBegin, hb]

theorem exec_beginBus_of_ready {s : State} (hb : s.bridge = .ready) : exec .beginBus s = .next (s.raise .alreadyInitialized) := by
  simp only [exec, execBegin, hb]

/-- With nothing to release, TEARDOWN signals nothing (R184). -/
theorem exec_tearDown_of_uninitialized {s : State} (hb : s.bridge = .uninitialized) :
    exec .tearDown s = .next { s with staged := false, ingressLen := 0, err := .ok } := by
  simp only [exec, execTearDown, hb]

theorem exec_tearDown_of_not_uninitialized {s : State} (hb : s.bridge ≠ .uninitialized) :
    exec .tearDown s = .next ({ s with bridge := .uninitialized, staged := false, ingressLen := 0, err := .ok }.emit .releaseOut) := by
  cases he : s.bridge with
  | uninitialized => exact absurd he hb
  | initialized | ready => simp only [exec, execTearDown, he]

/-- CAP_ACTIVE, at offset 0x5C, reads 0 while the bridge is Uninitialized (R48). -/
theorem State.hostRead_capActive_of_uninitialized {s : State} (hb : s.bridge = .uninitialized) : s.hostRead 0x5C = 0 := by
  rw [s.hostRead_of_regAt (r := .capActive) rfl]
  simp only [State.readRegister, State.capActive, hb]

/-- Settles O23: the two roles differ in what they latch and forward, and both zero-fill the frame pair. -/
theorem initLatchesAndAllocates : Obligations.InitLatchesAndAllocates := by
  intro s hb
  have hexec := exec_initBridge_of_uninitialized hb
  have hfill := fun a => And.intro (s.send.read_zeroFill s.build.cMax a) (s.recv.read_zeroFill s.build.cMax a)
  refine ⟨fun hr => ⟨_, _, ?_, hfill⟩, fun hr => ⟨_, _, ?_, hfill⟩⟩
  · rwa [State.configToLatch_master hr, initPorts_master hr] at hexec
  · rwa [State.configToLatch_slave hr, initPorts_slave hr] at hexec

/-- Settles O24. -/
theorem beginMakesTheBridgeReady : Obligations.BeginMakesTheBridgeReady := fun _ hb => exec_beginBus_of_initialized hb

/-- Settles O25: whatever the bridge state was, TEARDOWN leaves it Uninitialized, where CAP_ACTIVE reads 0. -/
theorem tearDownReleasesTheBridge : Obligations.TearDownReleasesTheBridge := by
  refine fun s => ⟨exec_tearDown_of_uninitialized, exec_tearDown_of_not_uninitialized, fun t h => ?_⟩
  obtain ⟨ports, rfl⟩ := execTearDown_cases h
  exact State.hostRead_capActive_of_uninitialized rfl

/-! STAGE. -/

theorem exec_stageFrame_of_not_ready {s : State} (hb : s.bridge ≠ .ready) : exec .stageFrame s = .next (s.raise .notReady) := by
  obtain ⟨t, h⟩ := exec_answers .stageFrame s
  obtain ⟨-, rfl⟩ | ⟨he, -⟩ := execStage_cases h
  · exact h
  · exact absurd he hb

/-- In Ready, STAGE takes its draw and consumes the offer (R188, R189). -/
theorem exec_stageFrame_of_ready {s : State} (hb : s.bridge = .ready) :
    exec .stageFrame s = .next (s.consumeIngress.stageBytes s.ingressDraw) := by
  simp only [exec, execStage, hb]

/-- On a Master the draw is the next offer. -/
theorem exec_stageFrame_of_offer {s : State} {a : List Byte} {rest : List (List Byte)} (hb : s.bridge = .ready) (hr : s.build.role = .master)
    (hoffer : s.env.ingress = a :: rest) :
    exec .stageFrame s = .next (({ s with env := { s.env with ingress := rest } } : State).stageBytes a) := by
  rw [exec_stageFrame_of_ready hb, State.consumeIngress_master hr, State.ingressDraw_master hr, hoffer, List.tail_cons, List.headD_cons]

/-- A draw of no bytes stages nothing (R190). -/
theorem State.stageBytes_nil (s : State) : s.stageBytes [] = { s with staged := false, ingressLen := 0, err := .ok } := rfl

/-- A draw of more than C bytes stages nothing (R191). -/
theorem State.stageBytes_of_overflow {s : State} {a : List Byte} (ha : s.capacity < a.length) :
    s.stageBytes a = { s with staged := false, ingressLen := saturate32 a.length, err := .frameOverflow } := by
  rw [State.stageBytes, if_neg (by omega), if_pos ha]

/-- A draw of 1 to C bytes is staged (R192). -/
theorem State.stageBytes_of_fits {s : State} {a : List Byte} (hpos : 1 ≤ a.length) (hfits : a.length ≤ s.capacity) :
    s.stageBytes a = { s with send := (s.send.zeroFill s.capacity).writeBytes 0 a, staged := true, ingressLen := BitVec.ofNat 32 a.length,
                              err := .ok } := by
  rw [State.stageBytes, if_neg (by omega), if_neg (by omega)]

/-- A Slave draws nothing, so it stages nothing (R189, R192). -/
theorem exec_stageFrame_slave {s : State} (hb : s.bridge = .ready) (hr : s.build.role = .slave) :
    exec .stageFrame s = .next { s with staged := false, ingressLen := 0, err := .ok } := by
  rw [exec_stageFrame_of_ready hb, State.consumeIngress_slave hr, State.ingressDraw_slave hr, State.stageBytes_nil]

/-- The staged frame: the bytes, zeros behind them up to `c`, and past `c` what was there (R192). -/
theorem Memory.read_stagedFrame {m : Memory} (hm : m.wf = true) (a : List Byte) (c k : Nat) :
    ((m.zeroFill c).writeBytes 0 a).read k = if k < a.length then a.getD k 0 else if k < c then 0 else m.read k := by
  rw [Memory.read_writeBytes a 0 k (Memory.wf_zeroFill hm c), Memory.read_zeroFill]
  simp

/-- Settles O27: no offer left and an empty offer both draw no bytes on a Master, and a Slave never draws any. -/
theorem stageWithoutBytesKeepsSend : Obligations.StageWithoutBytesKeepsSend := by
  refine fun s hb => ⟨fun hr hempty => ?_, exec_stageFrame_slave hb⟩
  have hdraw : s.ingressDraw = [] := by
    rw [State.ingressDraw_master hr]
    obtain hnone | ⟨rest, hoffer⟩ := hempty
    · rw [hnone, List.headD_nil]
    · rw [hoffer, List.headD_cons]
  rw [exec_stageFrame_of_ready hb, hdraw, State.consumeIngress_master hr, State.stageBytes_nil]

/-- Settles O28. -/
theorem stageOverflowKeepsSend : Obligations.StageOverflowKeepsSend := by
  intro s a rest hb hr hoffer hover
  rw [exec_stageFrame_of_offer hb hr hoffer, State.stageBytes_of_overflow]
  · rfl
  · exact hover

/-- Settles O29: the Master's draw is staged over the zero-filled frame, and a Slave's is empty. -/
theorem stageCopiesAndPads : Obligations.StageCopiesAndPads := by
  refine ⟨fun s a rest hb hr hoffer hpos hfits hwf => ?_, fun s hr hb => exec_stageFrame_slave hb hr⟩
  refine ⟨_, ?_, Memory.wf_writeBytes a 0 (Memory.wf_zeroFill hwf s.capacity), Memory.read_stagedFrame hwf a s.capacity⟩
  rw [exec_stageFrame_of_offer hb hr hoffer, State.stageBytes_of_fits hpos]
  · rfl
  · exact hfits

/-! The issue of TRANSFER. -/

theorem exec_transferFrame_of_not_ready {s : State} (hb : s.bridge ≠ .ready) : exec .transferFrame s = .next (s.raise .notReady) := by
  obtain ⟨t, h⟩ := exec_answers .transferFrame s
  obtain ⟨-, rfl⟩ | ⟨he, -⟩ := execTransfer_cases h
  · exact h
  · exact absurd he hb

/-- In Ready, TRANSFER puts the frame's words in flight (R196). -/
theorem exec_transferFrame_issues {s : State} (hb : s.bridge = .ready) :
    exec .transferFrame s = .next
      { s with xfer := some ⟨outboundWords s.send s.capacity, s.latchTimeout⟩, sel := s.select, busy := true,
               env := { s.env with ports := .xferStart (outboundWords s.send s.capacity) s.latchTimeout :: s.env.ports } } := by
  obtain ⟨t, h⟩ := exec_answers .transferFrame s
  obtain ⟨hne, -⟩ | ⟨-, rfl⟩ := execTransfer_cases h
  · exact absurd hb hne
  · exact h

/-- The words of a frame in their order (R194). -/
theorem getD_outboundWords (m : Memory) {c k : Nat} (hk : k < c / 4) : (outboundWords m c).getD k 0 = outboundWord m k := by
  simp [outboundWords, hk]

/-- Settles O30: the two roles differ in TMO and the select line, and the words are SEND's on both. -/
theorem transferIssueSnapshotsSend : Obligations.TransferIssueSnapshotsSend := by
  intro s hb
  have hexec := exec_transferFrame_issues hb
  refine ⟨outboundWords s.send s.capacity, fun hr => ?_, fun hr => ?_, length_outboundWords _ _, fun k hk j hj => ?_⟩
  · rwa [State.latchTimeout_master hr, State.select_master hr] at hexec
  · rwa [State.latchTimeout_slave hr, State.select_slave hr] at hexec
  · rw [getD_outboundWords _ hk, outboundWord_getLsbD _ _ _ hj]

/-- Settles O26: the forbidden cells of R181's table. -/
theorem bridgeStateForbidsOperations : Obligations.BridgeStateForbidsOperations := fun _ =>
  ⟨exec_initBridge_of_not_uninitialized, exec_beginBus_of_uninitialized, exec_beginBus_of_ready, exec_stageFrame_of_not_ready,
    exec_transferFrame_of_not_ready⟩

/-! Who moves STATE. -/

/-- The moves of STATE that R181's table has: INIT, BEGIN and TEARDOWN, from where to where. -/
def MovesBridge : Instr → Bridge → Bridge → Prop
  | .initBridge, b, b' => b = .uninitialized ∧ b' = .initialized
  | .beginBus, b, b' => b = .initialized ∧ b' = .ready
  | .tearDown, _, b' => b' = .uninitialized
  | _, _, _ => False

/-- An instruction leaves STATE, or makes its move of the table. -/
theorem exec_bridge {i : Instr} {s t : State} (h : exec i s = .next t) : t.bridge = s.bridge ∨ MovesBridge i s.bridge t.bridge := by
  cases hw : i.isWire with
  | true =>
    obtain ⟨op, vals, e⟩ := exec_wire hw s
    rw [e] at h
    cases h
    exact .inl rfl
  | false =>
    cases i with
    | readBits _ _ => obtain ⟨_, -, rfl⟩ | ⟨-, rfl⟩ := execReadBits_cases h <;> exact .inl rfl
    | writeBits _ _ =>
      obtain ⟨-, rfl⟩ | ⟨-, _, -, rfl⟩ | ⟨-, -, rfl⟩ := execWriteBits_cases h
      · exact .inl rfl
      · exact .inl rfl
      · exact .inl (by rw [State.raise_bridge, State.setBuffer_bridge])
    | encodeCommand => obtain ⟨-, rfl⟩ | ⟨_, -, rfl⟩ := execEncode_cases h <;> exact .inl rfl
    | decodeCommand _ => obtain ⟨_, -, rfl⟩ | ⟨_, _, rfl⟩ := execDecode_cases h <;> exact .inl rfl
    | initBridge =>
      obtain ⟨-, rfl⟩ | ⟨hb, rfl⟩ := execInit_cases h
      · exact .inl rfl
      · exact .inr ⟨hb, rfl⟩
    | beginBus =>
      obtain ⟨-, rfl⟩ | ⟨-, rfl⟩ | ⟨hb, rfl⟩ := execBegin_cases h
      · exact .inl rfl
      · exact .inl rfl
      · exact .inr ⟨hb, rfl⟩
    | stageFrame => obtain ⟨-, rfl⟩ | ⟨-, _, _, -, rfl | ⟨-, rfl⟩ | ⟨-, -, rfl⟩⟩ := execStage_cases h <;> exact .inl rfl
    | transferFrame => obtain ⟨-, rfl⟩ | ⟨-, rfl⟩ := execTransfer_cases h <;> exact .inl rfl
    | tearDown => obtain ⟨_, rfl⟩ := execTearDown_cases h; exact .inr rfl
    | _ => cases hw

theorem State.busStep_bridge (s : State) (o : Completion) : (s.busStep o).bridge = s.bridge := by
  obtain ⟨-, e⟩ | ⟨-, _, -, e⟩ | ⟨-, -, e⟩ := s.busStep_cases o <;> rw [e] <;> rfl

/-- A step that changes STATE issues an operation that makes a move of the table, or is a reset. -/
theorem step_bridge {s t : State} (h : step s = .next t) (hne : t.bridge ≠ s.bridge) :
    (∃ i, s.issuing = some i ∧ MovesBridge i s.bridge t.bridge) ∨ ((∃ ts, s.env.turns = .reset :: ts) ∧ t.bridge = .uninitialized) := by
  obtain ⟨env, rfl⟩ | ⟨-, v, env, rfl⟩ | ⟨off, v, env, rfl⟩ | ⟨o, ts, -, rfl⟩ | ⟨hts, rfl⟩ | ⟨-, env, rfl⟩ | ⟨i, env, -, -, hi, he⟩ :=
    step_cases h
  · exact absurd rfl hne
  · exact absurd rfl hne
  · exact absurd (State.hostWrite_bridge _ off v) hne
  · exact absurd (State.busStep_bridge _ o) hne
  · exact .inr ⟨hts, rfl⟩
  · exact absurd rfl hne
  · obtain hsame | hmoves := exec_bridge he
    · exact absurd hsame hne
    · exact .inl ⟨i, hi, hmoves⟩

/-- Settles O51: the moves of the table, read off for its three operations. -/
theorem bridgeStateMovesByItsOperations : Obligations.BridgeStateMovesByItsOperations := by
  intro s t h hne
  obtain ⟨i, hi, hmoves⟩ | hreset := step_bridge h hne
  · cases i with
    | initBridge => exact .inl ⟨hi, hmoves⟩
    | beginBus => exact .inr (.inl ⟨hi, hmoves⟩)
    | tearDown => exact .inr (.inr (.inl ⟨hi, hmoves⟩))
    | _ => exact hmoves.elim
  · exact .inr (.inr (.inr hreset))

end Sys2Proof.Machine
end

section
/-! The bus agent's turn (spec/42_bridge.md R195, R197 to R201): which outcomes are enabled, what each does, and how a transfer ends. -/

namespace Sys2Proof.Machine

/-! Which outcomes are enabled. -/

theorem State.completionEnabled_complete_iff {s : State} {words : List Word} :
    s.completionEnabled (.complete words) = true ↔ s.busy = true ∧ words.length = s.capacity / 4 := by
  simp only [State.completionEnabled, Bool.and_eq_true, decide_eq_true_eq]

theorem State.completionEnabled_timeout_iff {s : State} : s.completionEnabled .timeout = true ↔ s.busy = true ∧ s.build.role = .master := by
  simp only [State.completionEnabled, Bool.and_eq_true, decide_eq_true_eq]

/-- No outcome is enabled without a transfer in flight. -/
theorem State.busy_of_completionEnabled {s : State} {o : Completion} (h : s.completionEnabled o = true) : s.busy = true := by
  cases o with
  | complete words => exact (State.completionEnabled_complete_iff.mp h).1
  | timeout => exact (State.completionEnabled_timeout_iff.mp h).1

/-! What a bus turn does. -/

theorem State.busStep_complete {s : State} {words : List Word} (h : s.completionEnabled (.complete words) = true) :
    s.busStep (.complete words) = s.completeTransfer words := by
  simp only [State.busStep, if_pos h]

theorem State.busStep_timeout {s : State} (h : s.completionEnabled .timeout = true) : s.busStep .timeout = s.timeoutTransfer := by
  simp only [State.busStep, if_pos h]

/-- An outcome that is not enabled is no step. -/
theorem State.busStep_of_disabled {s : State} {o : Completion} (h : s.completionEnabled o ≠ true) : s.busStep o = s := by
  simp only [State.busStep, if_neg h]

/-- The bus agent neither reads nor writes the environment. -/
theorem State.busStep_withEnv (s : State) (o : Completion) (env : Env) :
    ({ s with env := env } : State).busStep o = { s.busStep o with env := env } := by
  by_cases hen : s.completionEnabled o = true
  · cases o with
    | complete words =>
      rw [State.busStep_complete hen, State.busStep_complete]
      · rfl
      · exact hen
    | timeout =>
      rw [State.busStep_timeout hen, State.busStep_timeout]
      · rfl
      · exact hen
  · rw [State.busStep_of_disabled hen, State.busStep_of_disabled]
    exact hen

/-- On a bus turn the bus agent takes its outcome, and the schedule moves on. -/
theorem step_of_bus {s : State} {o : Completion} {ts : List Turn} (hts : s.env.turns = .bus o :: ts) :
    step s = .next { s.busStep o with env := { s.env with turns := ts } } := by
  rw [← State.busStep_withEnv, ← State.afterTurn_of_turns hts]
  exact step_of_quiet (by simp only [State.nextMove, hts])

/-- Settles O33: an enabled outcome needs BUSY = 1, and Timeout a Master. -/
theorem busOutcomesEnabledInFlightOnly : Obligations.BusOutcomesEnabledInFlightOnly := by
  refine ⟨fun s hr hbusy => ⟨State.completionEnabled_timeout_iff.mpr ⟨hbusy, hr⟩, fun words hlen =>
    State.completionEnabled_complete_iff.mpr ⟨hbusy, hlen⟩⟩, fun s o ts hts hno => ?_⟩
  have hdisabled : s.completionEnabled o ≠ true := by
    intro hen
    obtain hidle | ⟨hr, rfl⟩ := hno
    · rw [State.busy_of_completionEnabled hen] at hidle
      cases hidle
    · obtain ⟨-, hmaster⟩ := State.completionEnabled_timeout_iff.mp hen
      rw [hr] at hmaster
      cases hmaster
  rw [step_of_bus hts, State.busStep_of_disabled hdisabled]

/-! What RECV holds afterwards. -/

/-- Byte 4k + j of RECV is byte j of received word k (R195). -/
theorem State.completeTransfer_recv_read (s : State) (hwf : s.recv.wf = true) (words : List Word) {k j : Nat} (hk : k < words.length)
    (hj : j < 4) : (s.completeTransfer words).recv.read (4 * k + j) = (words.getD k 0).extractLsb' (8 * j) 8 := by
  have hbound := inboundFrame_length words
  rw [State.completeTransfer_recv, Memory.read_writeBytes _ _ _ hwf, if_pos (by omega), Nat.sub_zero, inboundFrame_getD words k j hk hj]

/-- Past the received frame RECV stays. -/
theorem State.completeTransfer_recv_read_past (s : State) (hwf : s.recv.wf = true) (words : List Word) {a : Nat} (ha : 4 * words.length ≤ a) :
    (s.completeTransfer words).recv.read a = s.recv.read a := by
  have hbound := inboundFrame_length words
  rw [State.completeTransfer_recv, Memory.read_writeBytes _ _ _ hwf, if_neg (by omega)]

/-- What a buffer reads after its first `n` bytes have taken a free value. -/
theorem Memory.read_writeBytes_freeBytes {m : Memory} (hm : m.wf = true) (byteAt : Nat → Byte) (n a : Nat) :
    (m.writeBytes 0 (freeBytes byteAt n)).read a = if a < n then byteAt a else m.read a := by
  rw [Memory.read_writeBytes _ 0 a hm, length_freeBytes]
  by_cases ha : a < n
  · simp [ha, freeBytes]
  · simp [ha]

/-- Settles O31: the Complete is enabled, and the roles differ in the select line alone. -/
theorem completionFillsRecv : Obligations.CompletionFillsRecv := by
  intro s words ts hts hbusy hlen hwf
  have hstep : step s = .next { s.completeTransfer words with env := { s.env with turns := ts } } := by
    rw [step_of_bus hts, State.busStep_complete (State.completionEnabled_complete_iff.mpr ⟨hbusy, hlen⟩)]
  refine ⟨(s.completeTransfer words).recv, fun hr => ?_, fun hr => ?_, fun k hk j hj => s.completeTransfer_recv_read hwf words hk hj,
    fun a ha => s.completeTransfer_recv_read_past hwf words ha⟩
  · rw [hstep, State.completeTransfer, State.deselect_master hr]
  · rw [hstep, State.completeTransfer, State.deselect_slave hr]

/-- Settles O32: on a Master in flight the Timeout is enabled. -/
theorem timeoutAbandonsTheTransfer : Obligations.TimeoutAbandonsTheTransfer := by
  intro s ts hts hbusy hr hwf
  refine ⟨s.timeoutTransfer.recv, ?_, Memory.read_writeBytes_freeBytes hwf _ _⟩
  rw [step_of_bus hts, State.busStep_timeout (State.completionEnabled_timeout_iff.mpr ⟨hbusy, hr⟩), State.timeoutTransfer,
    State.deselect_master hr]

/-! How a transfer ends. -/

/-- A register write leaves BUSY: STATUS is read-only (R26). -/
theorem State.hostWrite_busy (s : State) (off : BitVec 8) (v : Word) : (s.hostWrite off v).busy = s.busy := by
  unfold State.hostWrite
  cases regAt off with
  | none => rfl
  | some r =>
    cases r with
    | timeout | cfgFreq | cfgSelpin | cfgBindAddr | cfgBindPort =>
      exact State.onMaster_induction (P := fun t => t.busy = s.busy) rfl rfl
    | _ => rfl

/-- Settles O34, by what a step can be: the host leaves BUSY, and while BUSY = 1 no operation issues. -/
theorem transferEndsByCompletionOrReset : Obligations.TransferEndsByCompletionOrReset := by
  intro s t h hbusy hover
  have hchanged : t.busy ≠ s.busy := by rw [hover, hbusy]; decide
  have hnotIdle : s.busy ≠ false := by rw [hbusy]; decide
  obtain ⟨env, rfl⟩ | ⟨-, v, env, rfl⟩ | ⟨off, v, env, rfl⟩ | ⟨o, ts, hts, rfl⟩ | ⟨hts, -⟩ | ⟨hidle, -⟩ | ⟨i, env, hidle, -⟩ := step_cases h
  · exact absurd rfl hchanged
  · exact absurd rfl hchanged
  · exact absurd (State.hostWrite_busy _ off v) hchanged
  · refine .inl ⟨o, ts, hts, ?_⟩
    by_contra hdisabled
    have hpasses : s.afterTurn.busStep o = s.afterTurn := State.busStep_of_disabled hdisabled
    exact hchanged (by rw [hpasses, State.afterTurn_busy])
  · exact .inr hts
  · exact absurd hidle hnotIdle
  · exact absurd hidle hnotIdle

/-- Settles O35: of the two endings that `transferEndsByCompletionOrReset` leaves, a silent peer takes the Complete away. -/
theorem silentPeerMeansTimeout : Obligations.SilentPeerMeansTimeout := by
  intro s t _ hsilent hr hbusy h hover
  obtain ⟨o, ts, hts, hen⟩ | hreset := transferEndsByCompletionOrReset s t h hbusy hover
  · cases o with
    | complete words =>
      refine absurd ?_ (hsilent words)
      rw [hts]
      exact List.mem_cons_self
    | timeout =>
      rw [step_of_bus hts, State.busStep_timeout hen] at h
      cases h
      exact .inr ⟨rfl, State.deselect_master hr, rfl, rfl⟩
  · exact .inl hreset

end Sys2Proof.Machine
end

section
/-! The composition of a Master and a Slave (spec/42_bridge.md R203, U24): when it is refused, which steps of its own each device keeps, and
what the joint step gives. -/

namespace Sys2Proof.Machine

/-! Refusal. -/

theorem Link.mismatched_iff {l : Link} : l.mismatched = true ↔
    l.master.bridge ≠ .uninitialized ∧ l.slave.bridge ≠ .uninitialized ∧ l.master.latched.cap ≠ l.slave.latched.cap := by
  simp only [Link.mismatched, Bool.and_eq_true, bne_iff_ne, and_assoc]

/-- One Uninitialized device, or equal C: a composition of the spec. -/
theorem Link.not_mismatched {l : Link}
    (h : l.master.bridge = .uninitialized ∨ l.slave.bridge = .uninitialized ∨ l.master.latched.cap = l.slave.latched.cap) :
    ¬ l.mismatched = true := by
  rw [Link.mismatched_iff]
  rintro ⟨hm, hs, hcap⟩
  exact h.elim hm fun h => h.elim hs hcap

/-- Settles O60. -/
theorem mismatchedCompositionIsRefused : Obligations.MismatchedCompositionIsRefused := by
  intro l turn hm hs hcap
  simp only [Link.step, if_pos (Link.mismatched_iff.mpr ⟨hm, hs, hcap⟩)]

/-! The steps of a composition that is not refused. -/

section
variable {l : Link} (hl : ¬ l.mismatched = true)
include hl

theorem Link.step_master {t : State} (h : Machine.step l.master = .next t) : l.step .master = .next ⟨t, l.slave⟩ := by
  simp only [Link.step, if_neg hl, h, Link.within]

theorem Link.step_slave {t : State} (h : slaveStep l.slave = .next t) : l.step .slave = .next ⟨l.master, t⟩ := by
  simp only [Link.step, if_neg hl, h, Link.within]

theorem Link.step_exchange : l.step .exchange = .next l.exchange := by
  simp only [Link.step, if_neg hl]

end

/-- A bus turn of the Slave's own passes. -/
theorem slaveStep_of_bus {s : State} {o : Completion} {ts : List Turn} (hts : s.env.turns = .bus o :: ts) :
    slaveStep s = .next { s with env := { s.env with turns := ts } } := by
  rw [← State.afterTurn_of_turns hts]
  simp only [slaveStep, hts]

/-- Every other step of the Slave is the one it takes alone. -/
theorem slaveStep_of_not_bus {s : State} (hbus : ∀ o ts, s.env.turns ≠ .bus o :: ts) : slaveStep s = step s := by
  unfold slaveStep
  split
  · rename_i hts
    exact absurd hts (hbus _ _)
  · rfl
  · rfl
  · rfl

/-- The joint step waits for both devices. -/
theorem Link.exchange_of_idle {l : Link} (h : l.master.busy = false ∨ l.slave.busy = false) : l.exchange = l := by
  have hboth : ¬ (l.master.busy && l.slave.busy) = true := by
    rw [Bool.and_eq_true, ← Bool.not_eq_false, ← Bool.not_eq_false]
    exact fun ⟨hm, hs⟩ => h.elim hm hs
  rw [Link.exchange, if_neg hboth]

/-- In flight both, each completes with the other's words. -/
theorem Link.exchange_of_busy {l : Link} (hm : l.master.busy = true) (hs : l.slave.busy = true) :
    l.exchange = ⟨l.master.completeTransfer l.slave.outWords, l.slave.completeTransfer l.master.outWords⟩ := by
  rw [Link.exchange, if_pos (by rw [hm, hs]; rfl)]

/-! A frame that goes through the converter both ways (R194, R195). -/

/-- Byte j of outbound word k is byte 4k + j of the frame. -/
theorem outboundWord_byte (m : Memory) (k : Nat) {j : Nat} (hj : j < 4) : (outboundWord m k).extractLsb' (8 * j) 8 = m.read (4 * k + j) := by
  ext i hi
  have hbyte : (32 * k + (8 * j + i)) / 8 = 4 * k + j := by omega
  have hbit : (32 * k + (8 * j + i)) % 8 = i := by omega
  rw [BitVec.getElem_extractLsb', outboundWord_getLsbD m k _ (by omega), streamBit, hbyte, hbit, BitVec.getLsbD_eq_getElem hi]

/-- A device that completes with the words of another's frame of `c` bytes holds that frame in RECV. -/
theorem State.completeTransfer_outboundWords (s : State) (hwf : s.recv.wf = true) (m : Memory) {c a : Nat} (hc : c % 4 = 0) (ha : a < c) :
    (s.completeTransfer (outboundWords m c)).recv.read a = m.read a := by
  have hk : a / 4 < c / 4 := by omega
  have hj : a % 4 < 4 := by omega
  rw [← Nat.div_add_mod a 4, State.completeTransfer_recv_read s hwf _ (by rwa [length_outboundWords]) hj, getD_outboundWords m hk,
    outboundWord_byte m _ hj]

/-- What the joint step needs of a device that has issued TRANSFER: its frame's words are in flight, and RECV, ROLE and C are as before. -/
theorem exec_transferFrame_inFlight {s t : State} (hb : s.bridge = .ready) (h : exec .transferFrame s = .next t) :
    t.busy = true ∧ t.outWords = outboundWords s.send s.capacity ∧ t.recv = s.recv ∧ t.build = s.build ∧ t.latched = s.latched := by
  rw [exec_transferFrame_issues hb] at h
  cases h
  exact ⟨rfl, rfl, rfl, rfl, rfl⟩

/-- Settles O59: the exchange completes both transfers with each other's outbound words; the other steps are one device's own. -/
theorem exchangeSwapsTheFrames : Obligations.ExchangeSwapsTheFrames := by
  refine ⟨fun m s hmr _ hmb hsb hcap hmod hmwf hswf => ?_, fun l hl => ?_⟩
  · obtain ⟨m', hm'⟩ := exec_answers .transferFrame m
    obtain ⟨s', hs'⟩ := exec_answers .transferFrame s
    obtain ⟨hmbusy, hmout, hmrecv, hmbuild, hmlatched⟩ := exec_transferFrame_inFlight hmb hm'
    obtain ⟨hsbusy, hsout, hsrecv, -, hslatched⟩ := exec_transferFrame_inFlight hsb hs'
    have hcapacity : s.capacity = m.capacity := congrArg BitVec.toNat hcap.symm
    have hequal : ¬ (Link.mk m' s').mismatched = true := Link.not_mismatched (.inr (.inr (by rw [hmlatched, hslatched, hcap])))
    have hstep := (Link.step_exchange hequal).trans (congrArg _ (Link.exchange_of_busy hmbusy hsbusy))
    refine ⟨m', s', _, hm', hs', hstep, fun a ha => ⟨?_, ?_⟩, rfl, rfl, rfl, rfl, State.deselect_master (by rw [hmbuild, hmr])⟩
    · rw [hsout, hcapacity, State.completeTransfer_outboundWords _ (by rwa [hmrecv]) _ hmod ha]
    · rw [hmout, State.completeTransfer_outboundWords _ (by rwa [hsrecv]) _ hmod ha]
  · have hok := Link.not_mismatched hl
    refine ⟨fun t => Link.step_master hok, fun o ts hts => Link.step_slave hok (slaveStep_of_bus hts),
      fun t hbus h => Link.step_slave hok ((slaveStep_of_not_bus hbus).trans h), fun hidle => ?_⟩
    rw [Link.step_exchange hok, Link.exchange_of_idle hidle]

end Sys2Proof.Machine
end

section
/-! The statuses (spec/60_exceptions.md R234), and that none of them stops the machine (R235, R238). -/

namespace Sys2Proof.Machine

/-! The status that each operation ends with. -/

/-- The statuses of the shared checks of READBITS and WRITEBITS are among those that the two may end with. -/
theorem sliceError_mem {st : Status} (h : st = .notReady ∨ st = .invalidWidth ∨ st = .outOfBounds) :
    st ∈ [Status.ok, .outOfBounds, .invalidWidth, .notReady] := by
  obtain rfl | rfl | rfl := h <;> decide

theorem execReadBits_err {buf : Buffer} {width : BitVec 6} {s t : State} (h : execReadBits buf width s = .next t) :
    t.err ∈ [Status.ok, .outOfBounds, .invalidWidth, .notReady] := by
  obtain ⟨_, hst, rfl⟩ | ⟨-, rfl⟩ := execReadBits_cases h
  · exact sliceError_mem hst
  · exact List.mem_cons_self

/-- IllegalOp is left out because the word of WRITEBITS RECV does not decode (R89). -/
theorem execWriteBits_err {buf : Buffer} {width : BitVec 6} {s t : State} (hbuf : buf ≠ .recv) (h : execWriteBits buf width s = .next t) :
    t.err ∈ [Status.ok, .outOfBounds, .invalidWidth, .notReady] := by
  obtain ⟨hrecv, -⟩ | ⟨-, _, hst, rfl⟩ | ⟨-, -, rfl⟩ := execWriteBits_cases h
  · exact absurd hrecv hbuf
  · exact sliceError_mem hst
  · exact List.mem_cons_self

theorem execEncode_err {s t : State} (h : execEncode s = .next t) : t.err ∈ [Status.ok, .unknownOpcode] := by
  obtain ⟨-, rfl⟩ | ⟨_, -, rfl⟩ := execEncode_cases h <;> simp

theorem execDecode_err {buf : Buffer} {s t : State} (h : execDecode buf s = .next t) :
    t.err ∈ [Status.ok, .outOfBounds, .unknownOpcode, .truncatedBuffer, .notReady] := by
  obtain ⟨_, hst, rfl⟩ | ⟨_, _, rfl⟩ := execDecode_cases h
  · obtain rfl | rfl | rfl | rfl := hst <;> simp
  · exact List.mem_cons_self

theorem execInit_err {s t : State} (h : execInit s = .next t) : t.err ∈ [Status.ok, .alreadyInitialized] := by
  obtain ⟨-, rfl⟩ | ⟨-, rfl⟩ := execInit_cases h <;> simp

theorem execBegin_err {s t : State} (h : execBegin s = .next t) : t.err ∈ [Status.ok, .alreadyInitialized, .notReady] := by
  obtain ⟨-, rfl⟩ | ⟨-, rfl⟩ | ⟨-, rfl⟩ := execBegin_cases h <;> simp

theorem execStage_err {s t : State} (h : execStage s = .next t) : t.err ∈ [Status.ok, .frameOverflow, .notReady] := by
  obtain ⟨-, rfl⟩ | ⟨-, _, _, -, rfl | ⟨-, rfl⟩ | ⟨-, -, rfl⟩⟩ := execStage_cases h <;> simp

/-- The issue of TRANSFER has not ended yet: OK and TransferTimeout come with its completion (R198, R199). -/
theorem execTransfer_err {s t : State} (h : execTransfer s = .next t) : (t.busy = true ∧ t.err = s.err) ∨ t.err = .notReady := by
  obtain ⟨-, rfl⟩ | ⟨-, rfl⟩ := execTransfer_cases h
  · exact .inr rfl
  · exact .inl ⟨rfl, rfl⟩

theorem execTearDown_err {s t : State} (h : execTearDown s = .next t) : t.err = .ok := by
  obtain ⟨_, rfl⟩ := execTearDown_cases h
  rfl

/-- A wire command commits itself, and the commit sets ERR to OK. -/
theorem exec_wire_err {i : Instr} {s t : State} (h : exec i s = .next t) (hi : i.isWire = true) : t.err = .ok := by
  obtain ⟨op, vals, hcommit⟩ := exec_wire hi s
  rw [hcommit] at h
  cases h
  rfl

/-- Settles O55: operation by operation; only WRITEBITS needs that its word has decoded. -/
theorem operationsEndWithTheirStatuses : Obligations.OperationsEndWithTheirStatuses := by
  intro i s t hwf h
  cases i with
  | readBits _ _ => exact execReadBits_err h
  | writeBits _ _ => exact execWriteBits_err (bne_iff_ne.mp hwf) h
  | encodeCommand => exact execEncode_err h
  | decodeCommand _ => exact execDecode_err h
  | initBridge => exact execInit_err h
  | beginBus => exact execBegin_err h
  | stageFrame => exact execStage_err h
  | transferFrame => exact execTransfer_err h
  | tearDown => exact execTearDown_err h
  | _ => exact exec_wire_err h rfl

/-! No step stops the machine. -/

/-- Settles O47: a quiet turn is over, an illegal word raises, and a decoded operation answers (`exec_answers`). -/
theorem everyStepAnswersNext : Obligations.EveryStepAnswersNext := by
  intro s
  cases hmove : s.nextMove with
  | quiet t => exact ⟨t, step_of_quiet hmove⟩
  | issue v t =>
    cases hd : decodeOpw v with
    | ok i =>
      rw [step_of_issue_ok hmove hd]
      exact exec_answers i t
    | illegal why => exact ⟨_, step_of_issue_illegal hmove hd⟩

end Sys2Proof.Machine
end

section
/-! Reset (spec/70_reset_and_hazards.md R260, R261): the machine after it is coherent, what the host reads then, and the reset step; and
the host writes that take effect at once (R264, R269). -/

namespace Sys2Proof.Machine

/-! The machine right after reset. -/

/-- The machine of any build is coherent after reset: C_MAX is a legal CFG_CAP, and nothing is allocated, in flight or staged. -/
theorem coherent_resetOf (b : Build) : (State.resetOf b).Coherent where
  cmdWf := rfl
  cmdWithin := rfl
  sendWf := rfl
  sendWithin := rfl
  recvWf := rfl
  recvWithin := rfl
  cfgCapLegal := by
    obtain ⟨hmod, hlo, -⟩ := cMax_legal b
    exact LegalCap.ofNat hmod hlo le_rfl
  capacityLegal := fun hb => absurd rfl hb
  busyIsXfer := rfl
  busyIsReady := fun hbusy => nomatch hbusy
  xferShape := fun x hx => nomatch hx
  selIsInFlight := (Bool.and_false _).symm
  stagedIsReady := fun _ => ⟨rfl, rfl⟩
  stagedLength := fun hstaged => nomatch hstaged
  slaveRegisters := fun _ => ⟨rfl, rfl, rfl, rfl, rfl, rfl, rfl⟩
  encLenPossible := .inl rfl

/-- Settles O49: `State.reset` is the machine of one build, the open one. -/
theorem resetIsCoherent : Obligations.ResetIsCoherent := ⟨coherent_resetOf Config.build, coherent_resetOf⟩

/-! Which offsets reach a register. -/

/-- An offset reaches a register exactly when it lies in the four bytes from the register's own offset on (R22, R69). -/
theorem regAt_eq_some_iff {off : BitVec 8} {r : Reg} : regAt off = some r ↔ off.toNat / 4 = (regOffset r).toNat / 4 := by
  constructor
  · intro h
    unfold regAt at h
    split at h
    case h_27 => cases h
    all_goals
      cases h
      assumption
  · intro h
    rw [← regAt_regOffset r]
    unfold regAt
    rw [h]

/-- OPW lies in the first four bytes only. -/
theorem regAt_ne_opw {off : BitVec 8} (h : 4 ≤ off.toNat) : regAt off ≠ some .opw := by
  intro hopw
  have hword : off.toNat / 4 = 0 := regAt_eq_some_iff.mp hopw
  omega

/-! What the host reads right after reset. -/

/-- A register that holds 0 reads 0, whether or not the role has it (R24). -/
theorem State.masterOnly_zero {w : Nat} (s : State) : s.masterOnly (0 : BitVec w) = 0 := by
  cases hr : s.build.role with
  | master => exact State.masterOnly_master hr 0
  | slave => exact State.masterOnly_slave hr 0

/-- But for CFG_CAP and the two registers that show the build, every register reads 0 after reset (R261). -/
theorem readRegister_resetOf {r : Reg} (hcap : r ≠ .cfgCap) (hparam : r ≠ .param) (hcmax : r ≠ .paramCmax) (b : Build) :
    (State.resetOf b).readRegister r = 0 := by
  cases r with
  | cfgCap => exact absurd rfl hcap
  | param => exact absurd rfl hparam
  | paramCmax => exact absurd rfl hcmax
  | status => exact BitVec.eq_of_toNat_eq (statusWord_toNat _)
  | timeout | cfgFreq | cfgSelpin | cfgBindAddr | cfgBindPort => exact State.masterOnly_zero _
  | _ => rfl

/-- PARAM as a number: SCHEMA_REV 1 above ROLE (R49). -/
theorem State.param_toNat (s : State) : s.param.toNat = if s.build.role = .master then 0x100 else 0x101 := by
  unfold State.param
  cases s.build.role <;> rfl

/-- Settles O58, register by register; a reserved offset reaches none of the three that do not read 0. -/
theorem resetRegisterWindow : Obligations.ResetRegisterWindow := by
  intro b off
  have hcap : off.toNat / 4 = 0x10 ↔ regAt off = some .cfgCap := (regAt_eq_some_iff (r := .cfgCap)).symm
  have hparam : off.toNat / 4 = 0x18 ↔ regAt off = some .param := (regAt_eq_some_iff (r := .param)).symm
  have hcmax : off.toNat / 4 = 0x19 ↔ regAt off = some .paramCmax := (regAt_eq_some_iff (r := .paramCmax)).symm
  simp only [hcap, hparam, hcmax]
  cases hreg : regAt off with
  | none => rw [State.hostRead_of_reserved _ hreg]; rfl
  | some r =>
    rw [State.hostRead_of_regAt _ hreg]
    simp only [Option.some.injEq]
    by_cases hmax : r = .cfgCap ∨ r = .paramCmax
    · rw [if_pos hmax]
      obtain rfl | rfl := hmax <;> exact toNat_ofNat_of_le_cMax le_rfl
    · rw [if_neg hmax]
      obtain ⟨hncap, hncmax⟩ := not_or.mp hmax
      by_cases hp : r = .param
      · rw [if_pos hp, hp]
        exact State.param_toNat _
      · rw [if_neg hp, readRegister_resetOf hncap hp hncmax]
        rfl

/-! The reset step. -/

/-- Settles O57: a reset turn is `State.resetStep`, and its free values reach the first C_MAX bytes of SEND and RECV. -/
theorem resetStepGivesResetValues : Obligations.ResetStepGivesResetValues := by
  intro s ts hts
  refine ⟨s.resetStep.send, s.resetStep.recv, s.freeLatched, ?_, rfl, fun hwf => Memory.read_writeBytes_freeBytes hwf _ _,
    fun hwf => Memory.read_writeBytes_freeBytes hwf _ _⟩
  rw [step_of_quiet (State.nextMove_of_reset hts), State.afterTurn_of_turns hts]
  rfl

/-! The host writes that take effect at once. -/

/-- The machine `s` with the registers that the host may write taken from `t`. -/
def State.withWritable (s t : State) : State :=
  { s with
    offset := t.offset
    len := t.len
    value := t.value
    opcode := t.opcode
    field0 := t.field0
    field1 := t.field1
    field2 := t.field2
    field3 := t.field3
    field4 := t.field4
    field5 := t.field5
    timeout := t.timeout
    cfgCap := t.cfgCap
    cfgQdepth := t.cfgQdepth
    cfgMode := t.cfgMode
    cfgFreq := t.cfgFreq
    cfgSelpin := t.cfgSelpin
    cfgBindAddr := t.cfgBindAddr
    cfgBindPort := t.cfgBindPort }

/-- The frame of a host write: it changes writable registers alone (R23, R59, R269). -/
theorem State.hostWrite_eq_withWritable (s : State) (off : BitVec 8) (v : Word) : s.hostWrite off v = s.withWritable (s.hostWrite off v) := by
  cases hreg : regAt off with
  | none => rw [s.hostWrite_of_reserved hreg]; rfl
  | some r =>
    rw [s.hostWrite_of_regAt hreg]
    cases r with
    | timeout | cfgFreq | cfgSelpin | cfgBindAddr | cfgBindPort =>
      exact State.onMaster_induction (P := fun t => t = s.withWritable t) rfl rfl
    | _ => rfl

/-- A write to an offset other than OPW's neither issues nor waits for BUSY (R264). -/
theorem State.hostWriteMove_of_ne_opw {off : BitVec 8} (hoff : regAt off ≠ some .opw) (s : State) (v : Word) :
    s.hostWriteMove off v = .quiet (s.hostWrite off v) := by
  simp only [State.hostWriteMove, if_neg hoff]

/-- Settles O42: the host's line is such a write, and what the statement lists is outside the frame of `hostWrite_eq_withWritable`. -/
theorem hostWritesLeaveTheBridge : Obligations.HostWritesLeaveTheBridge := by
  intro s off v hoff
  refine ⟨fun ts hts hheld hl => ?_, s.hostWrite off v, rfl, ?_⟩
  · have hwrite := State.hostWriteMove_of_ne_opw (regAt_ne_opw hoff) (s.afterTurn.atLine (s.env.line + 1)) v
    refine step_of_line hts hheld hl (hwrite.trans ?_)
    rw [State.afterTurn_of_turns hts]
    rfl
  · rw [s.hostWrite_eq_withWritable off v]
    exact ⟨rfl, rfl, rfl, rfl, rfl, rfl, rfl, rfl, rfl, rfl, rfl, rfl, rfl, rfl⟩

end Sys2Proof.Machine
end
